-- ==== Sys2Proof/Word.lean ====
section
/-! DEFINITION. The word types of the DR4: converter codes, frame characters, pin levels and district
numbers, as 00_scope.md "Conventions" gives them. -/

namespace Sys2Proof

/-- A converter code, 0 to 1023 (R1). -/
abbrev Code := BitVec 10

/-- The eight data bits of a line character (R92); bit 7 is D7. -/
abbrev Byte := BitVec 8

/-- Districts are numbered 0 to 3 (00 "Numbering"). -/
abbrev District := Fin 4

/-- A station number, 0 to 255 (00 "Numbering"). -/
abbrev StationNumber := Fin 256

/-- The level of a pin.  On LINE low is dominant and reads 0, high is recessive and reads 1
(00 "Line levels"). -/
inductive Level where
  | low
  | high
deriving DecidableEq, Repr

end Sys2Proof
end

