-- ==== Sys2Proof/Config.lean ====
section
/-! DEFINITION. The constants of the part (00 "Shared constants" and the constant tables of the
chapters), and the one free value of the model.  Times are whole microseconds unless a name says ms. -/

namespace Sys2Proof.Config

/-- One millisecond, in microseconds. -/
def ms : Nat := 1000

/-! Sensing (01). -/
def tCONV : Nat := 40
def tSCAN : Nat := 250
def NSTRAP : Nat := 24
def CSAT : Nat := 1023
def VLOW : Nat := 360
def VHIGH : Nat := 400
def NLOW : Nat := 4
def NHIGH : Nat := 40
def tDEB : Nat := 10 * ms
def tDEBC : Nat := 5 * ms

/-! Trip engine (02). -/
def NHARD : Nat := 2
def NPROBE : Nat := 4
/-- k runs from 0 to 63 in a ramp; at 64 the ramp is complete (R29). -/
def kEND : Nat := 64

/-! District recovery (03). -/
def NLOCK : Nat := 8
def tSETTLE : Nat := 10000 * ms
def WMAX : Nat := 65535
/-- tCOOL(n) = 125 ms × 2^min(n, 5) (R47). -/
def tCOOL (n : Nat) : Nat := 125 * ms * 2 ^ min n 5

/-! Reversing districts (04). -/
def tCONTEND : Nat := 10 * ms
def tCONFIRM : Nat := 15 * ms
def tWATCH : Nat := 20 * ms
def NCHATTER : Nat := 5
def tCHATTER : Nat := 1000 * ms
def tPARDON : Nat := 10 * ms
/-- tPARDON in whole ms, as it is read against the last-intent age (R87). -/
def tPARDONms : Nat := 10
def tPCOOL : Nat := 30 * ms

/-! Peer line (05). -/
def tBIT : Nat := 16
def tHALF : Nat := 8
def NSLOT : Nat := 12
def tCHAR : Nat := 192
def NIDLE : Nat := 11
def NJOIN : Nat := 10
def tBREAK : Nat := 2 * ms
def tBDRIVE : Nat := 4 * ms

/-! Outgoing queue (07). -/
def NQUEUE : Nat := 8

/-! Ramp list unit (08); its lives are in ms, because they fall at the ticks of the millisecond clock. -/
def NLIST : Nat := 16
def tPEERms : Nat := 96
def tFLOORms : Nat := 10000
def tHOLDOFFms : Nat := 50
def tURGEms : Nat := 128
def UMAX : Nat := 15
def AGEMAX : Nat := 255

/-! Start-up (10). -/
def BANDW : Nat := 64
def GLOW : Nat := 8
def GHIGH : Nat := 55
def tSELF : Nat := 800
def tLISTEN : Nat := 100 * ms
def IDALL : Nat := 255

/-! Indications (11). -/
def tLAMP : Nat := 62500
def NPHASE : Nat := 16
def CB_STOP : Nat := 8
def CB_SUPPLY : Nat := 4
def CB_ALERT : Nat := 2
def CB_FLOOR : Nat := 1

/-- FREE VALUE (log entry 4).  Which of several events that fall together the part takes first: the
spec says of each pair that either may be taken first.  Applied to the counter State.tie. -/
opaque tieBreak : Nat → Nat

end Sys2Proof.Config
end

