-- ==== Sys2Proof/Syntax.lean ====
section
/-! DEFINITION. The commands of the DR4: one constructor of Instr per row of spec/opcode_table.json, in
the table's order.  The rows name no operands; the operands here are what each row's own sentence says
the event carries (INVENTORY.md "Instructions"). -/

namespace Sys2Proof

/-- The seven debounced inputs (01 1.6). -/
inductive InputPin where
  | stop
  | resume
  | release
  | cnf (k : District)
deriving DecidableEq, Repr

/-- The WHERE character of a frame (R114). -/
structure Where where
  group : Fin 16
  district : District
  all : Bool
  set : Bool
deriving DecidableEq, Repr

/-- The fields of a frame beside its kind (R114): priority nibble, sender, WHERE and DATA. -/
structure FrameBody where
  prio : Fin 16
  sender : StationNumber
  loc : Where
  data : Byte
deriving DecidableEq, Repr

/-- A character as the receiver sampled it: slots 2 to 12 of R92. -/
structure RawChar where
  data : Byte
  mark : Bool
  parity : Bool
  stop : Bool
deriving DecidableEq, Repr

/-- The commands.  `idle` is the reading of the idle timer, in bit times, at the edge (log entry 12). -/
inductive Instr where
  | reset
  | strapReading (strap : Fin 6) (round : Fin 4) (code : Code)
  | currentSample (k : District) (code : Code)
  | supplySample (code : Code)
  | probePulseStart (k : District)
  | rawInputChange (pin : InputPin) (level : Level)
  | debounceExpiry (pin : InputPin)
  | breakDriveMinimumEnd
  | coolingExpiry (k : District)
  | settleWindowExpiry (k : District)
  | rampKAdvance (k : District)
  | rampCompletion (k : District)
  | contendTimeout (k : District)
  | confirmTimeout (k : District)
  | flipWatchEnd (k : District)
  | yieldWatchEnd (k : District)
  | chatterWindowExpiry (k : District)
  | pardonWindowEnd (k : District)
  | millisecondTick
  | peerEntryExpiry (station : StationNumber) (district : District)
  | floorExpiry
  | holdoffEnd
  | lampPhaseAdvance
  | selftestCharacter (raw : RawChar)
  | endOfSelftest
  | endOfListen
  | characterError (raw : RawChar)
  | shortError (head : Byte)
  | idleGap
  | idleBoundaryAttempt
  | join (idle : Fin 12)
  | arbitrationLoss
  | driverFault
  | breakDetected
  | breakEnd
  | fiFrame (b : FrameBody)
  | trFrame (b : FrameBody)
  | reFrame (b : FrameBody)
  | rbFrame (b : FrameBody)
  | rsFrame (b : FrameBody)
  | hdFrame (b : FrameBody)
  | rlFrame (b : FrameBody)
  | sqFrame (b : FrameBody)
  | stFrame (b : FrameBody)
  | unknownKindFrame (extra : Fin 7) (b : FrameBody)
  | ownFiCompletion
  | ownRbCompletion
  | ownTrCompletion
  | ownFrameCompletion
  | cleanCharacter (data : Byte) (mark : Bool)
  | lineFallingEdge (idle : Fin 12)
  | startRecheck (level : Level)
deriving DecidableEq, Repr

/-- The kinds of a frame (R115).  `unknown c` is kind code 9 + c. -/
inductive Kind where
  | fi
  | tr
  | re
  | rb
  | rs
  | hd
  | rl
  | sq
  | st
  | unknown (extra : Fin 7)
deriving DecidableEq, Repr

end Sys2Proof
end

