-- ==== Sys2Proof/Decode.lean ====
section
/-! DEFINITION. Reading a command from a word.  spec/opcode_table.json gives none of its 52 rows any bits
(every row's "fields" is empty and no row has "fixed"), so no word spells a command. -/

namespace Sys2Proof

/-- The command that a word of the table's bits spells: none for every word, since no row has bits. -/
def decodeTableWord (_nbits _w : Nat) : Option Instr := none

end Sys2Proof
end

