-- ==== Sys2Proof/Machine/State.lean ====
section
/-! DEFINITION. The state of the DR4 as plain data, holding every piece of state that the spec gives the
part (INVENTORY.md "State" lists each with its rule), and the state right after reset.  A field whose name
ends in nothing special and that measures time counts microseconds; the fields of the ramp list unit count
ms, because they move at the ticks of the millisecond clock (R142). -/

namespace Sys2Proof.Machine

/-- Why a command could stop the machine.  Closed and empty: the spec gives no command that stops the DR4
(INVENTORY.md "Faults"). -/
inductive Fault where
deriving DecidableEq, Repr

/-- Why a command has no meaning.  notModelled is the interface's own: it would be raised by an arm of exec
that has no meaning yet, which is safe; no arm raises it. -/
inductive Refusal where
  | notModelled (mnemonic : String)
deriving DecidableEq, Repr

/-- One value for each of the four districts. -/
structure PerDistrict (α : Type) where
  d0 : α
  d1 : α
  d2 : α
  d3 : α
deriving DecidableEq, Repr

/-- A timer: stopped, or running with this many microseconds left.  `some 0` has run out and its end has
not been taken yet. -/
abbrev Timer := Option Nat

/-! ### Station control (09, 10) -/

/-- The station modes (R179). -/
inductive Mode where
  | straps
  | selfTest
  | listen
  | run
  | quiet
  | strapFault
deriving DecidableEq, Repr

/-- A strap reading as handed over: its strap, its round and its code (R4, R181). -/
structure Reading where
  strap : Fin 6
  round : Fin 4
  code : Code
deriving DecidableEq, Repr

/-- The strap configuration (R182).  L is derived from trip; B is budget, 1 to 16. -/
structure StationConfig where
  id : StationNumber
  group : Fin 16
  budget : Nat
  trip : Fin 16
  rev : Fin 16
deriving DecidableEq, Repr

/-- The halt-cause set (R164): each cause present or absent. -/
structure HaltCauses where
  start : Bool
  lineStop : Bool
  supply : Bool
deriving DecidableEq, Repr

/-- The self-test as it runs (R186): characters handed over, whether all matched so far, time left. -/
structure SelfTest where
  handed : Nat
  matched : Bool
  left : Timer
deriving DecidableEq, Repr

/-! ### Sensing (01) -/

/-- What the converter is doing (R4, R5): strap conversion `index` (0 to 23) with `t` run, or the scan with
`t` run since the scan began and `taken` conversions of this scan handed on. -/
inductive Converter where
  | straps (index t : Nat)
  | scan (t taken : Nat)
deriving DecidableEq, Repr

/-- The supply monitor (01 1.4). -/
structure SupplyMonitor where
  lowRun : Nat
  highRun : Nat
  present : Bool
deriving DecidableEq, Repr

/-- One qualifier (01 1.6): the debounced level (none: unsettled), the hold timer (none: stopped; else the
time held), and the raw level on the pin, which is the level the timer times. -/
structure Qualifier where
  settled : Option Level
  held : Option Nat
  raw : Level
deriving DecidableEq, Repr

/-! ### Trip engine (02 R18) -/

/-- The probe record: samples taken and the sum of the counted ones, in mA. -/
structure Probe where
  taken : Nat
  sum : Nat
deriving DecidableEq, Repr

/-- The trip engine of one district: E, the hard-run counter and the probe record. -/
structure Engine where
  excess : Nat
  hardRun : Nat
  probe : Option Probe
deriving DecidableEq, Repr

/-! ### District record (03 R38) -/

/-- District states, in the order of their ST codes 0 to 9 (R38, R199). -/
inductive DistrictState where
  | halted
  | dark
  | live
  | cooling
  | probing
  | queued
  | ramping
  | contend
  | switching
  | locked
deriving DecidableEq, Repr

/-- Fault kinds, in the order of their codes 0 to 6 (R41, R199). -/
inductive FaultKind where
  | none
  | hard
  | overload
  | inrush
  | probe
  | chatter
  | relay
deriving DecidableEq, Repr

inductive ProbePhase where
  | wait
  | pulse
deriving DecidableEq, Repr

inductive WatchKind where
  | none
  | flip
  | yield
deriving DecidableEq, Repr

inductive Origin where
  | live
  | ramp
  | probe
deriving DecidableEq, Repr

inductive ReturnClass where
  | queue
  | cool
  | probe
  | dark
  | locked
deriving DecidableEq, Repr

/-- The record of one district (R38).  rampSub is the time run since k last advanced; pardonWindow is set
while the window after a trip of R87 is open. -/
structure DistrictRecord where
  state : DistrictState
  reversing : Bool
  n : Nat
  lastFault : FaultKind
  hold : Bool
  cooling : Nat
  phase : ProbePhase
  k : Nat
  rampSub : Nat
  settle : Timer
  w : Nat
  watch : WatchKind
  watchLeft : Nat
  contend : Timer
  yielded : Bool
  probeFlipTried : Bool
  origin : Origin
  pardoned : Bool
  pardonWindow : Bool
  returnClass : ReturnClass
  confirmPending : Bool
deriving DecidableEq, Repr

/-- The changeover state of one district (R69).  pol none is "not driven". -/
structure Relay where
  pol : Option Level
  commanded : Bool
  cnf : Option Level
  confirm : Timer
  flipCount : Nat
  chatter : Timer
deriving DecidableEq, Repr

/-! ### Frames (06 R114) and the outgoing queue (07 R130) -/

/-- A frame as posted: STATION is not held, since it is always ID (R130). -/
structure Post where
  kind : Kind
  prio : Fin 16
  loc : Where
  data : Byte
deriving DecidableEq, Repr

/-- A whole frame: what is posted, and the sender. -/
structure Frame where
  post : Post
  sender : StationNumber
deriving DecidableEq, Repr

/-- The mark of an ON_LINE entry (R130): a replacement clears withdrawn and a withdrawal clears changed
(R133, R137), so an entry never has both. -/
inductive Mark where
  | none
  | changed
  | withdrawn
deriving DecidableEq, Repr

/-- The standing of an entry with the transmitter (R130). -/
inductive EntryPhase where
  | waiting
  | onLine (mark : Mark)
deriving DecidableEq, Repr

structure Entry where
  frame : Post
  phase : EntryPhase
deriving DecidableEq, Repr

/-! ### Line interface and frame assembly (05 R90) -/

inductive ReceiverPhase where
  | awaitIdle
  | ready
  | character
deriving DecidableEq, Repr

/-- The receiver: its phase, the pending start re-check (time left), the character in progress (time since
its start edge and the slots sampled, oldest first), and a judged character that waits for the end of its
stop slot to be handed over (R96). -/
structure Receiver where
  phase : ReceiverPhase
  check : Timer
  elapsed : Nat
  slots : List Level
  handing : Option (RawChar × Nat)
deriving DecidableEq, Repr

/-- The frame in flight: the transmitter's own copy, the character reached (0 to 3) and the time since that
character's start edge (R90, R91).  `lost` is the outcome of the sample of this very microsecond: a released slot
that read dominant (R105). -/
structure Sending where
  frame : Frame
  char : Nat
  t : Nat
  lost : Bool := false
deriving DecidableEq, Repr

/-- The break driver (R110): off; driving with the minimum time run so far; driving beyond the minimum. -/
inductive BreakDriver where
  | off
  | minimum (ran : Nat)
  | held
deriving DecidableEq, Repr

/-- The line interface (R90).  pulled: another station pulls LINE low.  was: the level the edge detector saw
last.  tx none is the transmitter's IDLE.  breakSeen: the dominant run now on the line has been detected as a
break (R109).  bitLeft: time to the next tBIT boundary of the station's bit clock (R103). -/
structure LineInterface where
  pulled : Bool
  was : Level
  rx : Receiver
  idle : Nat
  idleSub : Nat
  tx : Option Sending
  dominant : Nat
  breakInProgress : Bool
  breakSeen : Bool
  driver : BreakDriver
  bitLeft : Nat
deriving DecidableEq, Repr

/-- The frame handler's assembly (R90, R98): the characters held, whose number is the position, and hunt. -/
structure Handler where
  held : List Byte
  hunt : Bool
deriving DecidableEq, Repr

/-! ### Ramp list unit (08 R142) -/

/-- An own entry has no life; a peer entry has its life in ms. -/
inductive EntryKind where
  | own
  | peer (life : Nat)
deriving DecidableEq, Repr

structure RampEntry where
  station : StationNumber
  district : District
  kind : EntryKind
deriving DecidableEq, Repr

/-- The budget floor F with its life in ms (R151). -/
structure Floor where
  value : Nat
  life : Nat
deriving DecidableEq, Repr

/-- The ramp list unit.  The list stands in the order of adding.  holdoff is in ms; none is idle. -/
structure RampUnit where
  list : List RampEntry
  floor : Option Floor
  holdoff : Option Nat
  intentAge : Nat
  rbDistrict : Option District
  chosen : Option District
deriving DecidableEq, Repr

/-! ### The whole part -/

/-- The state of the DR4.  `haltEnded` (a halt has ended in the present microsecond, log entry 31) and `tie` (the
counter of broken ties, log entry 4) are the model's own; `pending` is the queue of commands, first in first
out. -/
structure State where
  strPins : List Code
  isenPins : PerDistrict Code
  vsenPin : Code
  converter : Converter
  supply : SupplyMonitor
  stopQ : Qualifier
  resumeQ : Qualifier
  releaseQ : Qualifier
  cnfQ : PerDistrict Qualifier
  mode : Mode
  readings : List Reading
  config : Option StationConfig
  halt : HaltCauses
  haltEnded : Bool
  selfTestNote : Bool
  duplicateNote : Bool
  selfTest : SelfTest
  listen : Timer
  engines : PerDistrict Engine
  districts : PerDistrict DistrictRecord
  relays : PerDistrict Relay
  line : LineInterface
  handler : Handler
  queue : List Entry
  ramp : RampUnit
  msLeft : Nat
  alert : Bool
  lampPhase : Nat
  lampLeft : Nat
  tie : Nat
  pending : List Instr
deriving DecidableEq, Repr

/-- A trip engine at reset (R18). -/
def Engine.reset : Engine := { excess := 0, hardRun := 0, probe := none }

/-- A district record at reset (R68). -/
def DistrictRecord.reset : DistrictRecord :=
  { state := .halted, reversing := false, n := 0, lastFault := .none, hold := false, cooling := 0,
    phase := .wait, k := 0, rampSub := 0, settle := none, w := 0, watch := .none, watchLeft := 0,
    contend := none, yielded := false, probeFlipTried := false, origin := .live, pardoned := false,
    pardonWindow := false, returnClass := .queue, confirmPending := false }

/-- The changeover state of a district at reset (R89). -/
def Relay.reset : Relay :=
  { pol := none, commanded := false, cnf := none, confirm := none, flipCount := 0, chatter := none }

/-- A qualifier at the end of reset on a raw level (01 1.6). -/
def Qualifier.reset (raw : Level) : Qualifier := { settled := none, held := some 0, raw := raw }

/-- The receiver at reset (R113). -/
def Receiver.reset : Receiver :=
  { phase := .awaitIdle, check := none, elapsed := 0, slots := [], handing := none }

/-- The level LINE shows when only the other stations may pull it. -/
def otherStationsLevel (pulled : Bool) : Level := if pulled then .low else .high

/-- The line interface at reset (R113), while the other stations hold the line as `pulled` says. -/
def LineInterface.reset (pulled : Bool) : LineInterface :=
  { pulled := pulled, was := otherStationsLevel pulled, rx := Receiver.reset, idle := 0, idleSub := 0,
    tx := none, dominant := 0, breakInProgress := false, breakSeen := false, driver := .off, bitLeft := 0 }

/-- The ramp list unit at reset (R163). -/
def RampUnit.reset : RampUnit :=
  { list := [], floor := none, holdoff := none, intentAge := Config.AGEMAX, rbDistrict := none,
    chosen := none }

/-- The same value for every district. -/
def PerDistrict.all {α : Type} (x : α) : PerDistrict α := { d0 := x, d1 := x, d2 := x, d3 := x }

/-- The machine right after reset.  Every block is at its reset values (R180, and the reset table of each
chapter).  The spec gives no level on an input pin: DESIGN CHOICE code 0 on the analog inputs, high on the
buttons, low on the relay confirms, LINE not pulled by another station (log entry 7). -/
def State.reset : State :=
  { strPins := [0, 0, 0, 0, 0, 0], isenPins := PerDistrict.all 0, vsenPin := 0,
    converter := .straps 0 0,
    supply := { lowRun := 0, highRun := 0, present := false },
    stopQ := Qualifier.reset .high, resumeQ := Qualifier.reset .high, releaseQ := Qualifier.reset .high,
    cnfQ := PerDistrict.all (Qualifier.reset .low),
    mode := .straps, readings := [], config := none,
    halt := { start := true, lineStop := false, supply := true }, haltEnded := false,
    selfTestNote := false, duplicateNote := false,
    selfTest := { handed := 0, matched := true, left := none }, listen := none,
    engines := PerDistrict.all Engine.reset, districts := PerDistrict.all DistrictRecord.reset,
    relays := PerDistrict.all Relay.reset,
    line := LineInterface.reset false, handler := { held := [], hunt := true },
    queue := [], ramp := RampUnit.reset, msLeft := Config.ms,
    alert := false, lampPhase := 0, lampLeft := Config.tLAMP, tie := 0, pending := [] }

end Sys2Proof.Machine
end

