-- ==== Sys2Proof/Machine/Operands.lean ====
section
/-! DEFINITION. Characters and frames: the layout of a frame (R114), the kind codes (R115), the twelve
slots of a character (R92), and the receiver's judgement of a sampled character (R96). -/

namespace Sys2Proof

/-- The kind code of R115. -/
def Kind.code : Kind → Nat
  | .fi => 0
  | .tr => 1
  | .re => 2
  | .rb => 3
  | .rs => 4
  | .hd => 5
  | .rl => 6
  | .sq => 7
  | .st => 8
  | .unknown extra => 9 + extra.val

/-- The kind that a code 0 to 15 names (R115). -/
def Kind.ofCode (c : Nat) : Kind :=
  match c with
  | 0 => .fi
  | 1 => .tr
  | 2 => .re
  | 3 => .rb
  | 4 => .rs
  | 5 => .hd
  | 6 => .rl
  | 7 => .sq
  | 8 => .st
  | c => .unknown (Fin.ofNat 7 (c - 9))

/-- The WHERE character: group in bits 7 to 4, district in bits 3 and 2, ALL in bit 1, SET in bit 0 (R114). -/
def Where.code (w : Where) : Nat :=
  16 * w.group.val + 4 * w.district.val + 2 * w.all.toNat + w.set.toNat

def Where.byte (w : Where) : Byte := BitVec.ofNat 8 w.code

/-- WHERE read field by field from a character (R114). -/
def Where.ofByte (b : Byte) : Where :=
  { group := Fin.ofNat 16 (b.toNat / 16), district := Fin.ofNat 4 (b.toNat / 4),
    all := b.getLsbD 1, set := b.getLsbD 0 }

/-- Whether the number of 1s among the data bits, the mark and the parity bit is odd (R92, R96). -/
def parityOdd (data : Byte) (mark parity : Bool) : Bool :=
  (List.range 8).foldl (fun acc i => acc ^^ data.getLsbD i) (mark ^^ parity)

/-- The parity bit that makes the count of 1s odd (R92). -/
def parityBit (data : Byte) (mark : Bool) : Bool := !parityOdd data mark false

/-- The judgement of a received character (R96). -/
inductive CharStatus where
  | clean
  | parity
  | framing
deriving DecidableEq, Repr

/-- R96: a dominant stop slot is FRAMING whatever the parity; else an even count is PARITY. -/
def RawChar.status (c : RawChar) : CharStatus :=
  if c.stop = false then .framing else if parityOdd c.data c.mark c.parity then .clean else .parity

/-- The clean character that carries `data` with `mark` (R92). -/
def RawChar.ofClean (data : Byte) (mark : Bool) : RawChar :=
  { data := data, mark := mark, parity := parityBit data mark, stop := true }

/-- The level of a bit on the line: 0 is dominant, low (00 "Line levels"). -/
def Level.ofBit (b : Bool) : Level := if b then .high else .low

def Level.bit (l : Level) : Bool :=
  match l with
  | .low => false
  | .high => true

def Level.invert (l : Level) : Level :=
  match l with
  | .low => .high
  | .high => .low

/-- The twelve slots of a character in the order they stand on the line: start, D7 to D0, mark, parity,
stop (R92). -/
def RawChar.slots (c : RawChar) : List Level :=
  Level.low ::
    ((List.range 8).map (fun i => Level.ofBit (c.data.getLsbD (7 - i))) ++
      [Level.ofBit c.mark, Level.ofBit c.parity, Level.ofBit c.stop])

/-- The byte whose bits D7 to D0 were sampled in this order. -/
def byteOfLevels (ls : List Level) : Byte :=
  BitVec.ofNat 8 (ls.foldl (fun acc l => 2 * acc + l.bit.toNat) 0)

/-- The character that twelve sampled slots make (R92, R96). -/
def RawChar.ofSlots (ls : List Level) : RawChar :=
  { data := byteOfLevels ((ls.drop 1).take 8), mark := (ls.getD 9 .high).bit,
    parity := (ls.getD 10 .high).bit, stop := (ls.getD 11 .high).bit }

/-- How many slots at the end of a character are recessive without a break: what the idle timer has
counted, in bit times, when the stop slot ends (R94, 05 "Runs on the line"). -/
def RawChar.trailingRecessive (c : RawChar) : Nat :=
  (c.slots.reverse.takeWhile (fun l => l == Level.high)).length

/-- How many slots at the end of a character are dominant (R108). -/
def RawChar.trailingDominant (c : RawChar) : Nat :=
  (c.slots.reverse.takeWhile (fun l => l == Level.low)).length

/-- What the dominant timer reads at the end of a character's stop slot (R108): its trailing dominant slots, or
the run that it had before if the whole character was dominant. -/
def RawChar.dominantAfter (c : RawChar) (before : Nat) : Nat :=
  if c.trailingDominant < Config.NSLOT then Config.tBIT * c.trailingDominant
  else max before Config.tCHAR

namespace Machine

/-- The frame of kind `kind` with the other fields `b`. -/
def Frame.ofBody (kind : Kind) (b : FrameBody) : Frame :=
  { post := { kind := kind, prio := b.prio, loc := b.loc, data := b.data }, sender := b.sender }

/-- HEAD: kind in bits 7 to 4, priority nibble in bits 3 to 0 (R114). -/
def Post.headByte (p : Post) : Byte := BitVec.ofNat 8 (16 * p.kind.code + p.prio.val)

def StationNumber.byte (n : StationNumber) : Byte := BitVec.ofNat 8 n.val

/-- The four characters of a frame: HEAD, STATION, WHERE, DATA (R114). -/
def Frame.chars (f : Frame) : List Byte :=
  [f.post.headByte, StationNumber.byte f.sender, f.post.loc.byte, f.post.data]

/-- The frame read field by field from its four characters (R114). -/
def Frame.ofChars (head station loc data : Byte) : Frame :=
  { post := { kind := Kind.ofCode (head.toNat / 16), prio := Fin.ofNat 16 head.toNat,
              loc := Where.ofByte loc, data := data },
    sender := Fin.ofNat 256 station.toNat }

/-- Character `i` of a frame as it stands on the line: the mark is 1 on HEAD alone (R93). -/
def Frame.rawChar (f : Frame) (i : Nat) : RawChar := RawChar.ofClean (f.chars.getD i 0) (i == 0)

/-- The copy the transmitter takes of an entry's frame: ID goes into STATION (R116, R130). -/
def Post.copyFrom (p : Post) (id : StationNumber) : Frame := { post := p, sender := id }

end Machine

end Sys2Proof
end

