-- ==== Sys2Proof/Machine/Ops.lean ====
section
/-! DEFINITION. The accessors of the state: one place through which each district's record, trip engine
and changeover state is read and written, the halt-cause set, and the configuration's derived values. -/

namespace Sys2Proof.Machine

/-- The value of district k. -/
def PerDistrict.get {α : Type} (q : PerDistrict α) (k : District) : α :=
  match k with
  | 0 => q.d0
  | 1 => q.d1
  | 2 => q.d2
  | 3 => q.d3

/-- The same with district k's value replaced. -/
def PerDistrict.set {α : Type} (q : PerDistrict α) (k : District) (x : α) : PerDistrict α :=
  match k with
  | 0 => { q with d0 := x }
  | 1 => { q with d1 := x }
  | 2 => { q with d2 := x }
  | 3 => { q with d3 := x }

/-- The same function applied to every district's value. -/
def PerDistrict.map {α : Type} (f : α → α) (q : PerDistrict α) : PerDistrict α :=
  { d0 := f q.d0, d1 := f q.d1, d2 := f q.d2, d3 := f q.d3 }

/-- The record of district k (R38). -/
def State.record (s : State) (k : District) : DistrictRecord := s.districts.get k

/-- The trip engine of district k (R18). -/
def State.engine (s : State) (k : District) : Engine := s.engines.get k

/-- The changeover state of district k (R69). -/
def State.relay (s : State) (k : District) : Relay := s.relays.get k

def State.setRecord (s : State) (k : District) (d : DistrictRecord) : State :=
  { s with districts := s.districts.set k d }

def State.setEngine (s : State) (k : District) (e : Engine) : State :=
  { s with engines := s.engines.set k e }

def State.setRelay (s : State) (k : District) (r : Relay) : State :=
  { s with relays := s.relays.set k r }

/-- District k's record changed by f. -/
def State.modRecord (s : State) (k : District) (f : DistrictRecord → DistrictRecord) : State :=
  s.setRecord k (f (s.record k))

def State.modRelay (s : State) (k : District) (f : Relay → Relay) : State :=
  s.setRelay k (f (s.relay k))

/-- The four districts in number order. -/
def allDistricts : List District := [0, 1, 2, 3]

/-- The steps of the four districts, each on its own, taken in number order (R67; the order is log entry 5). -/
def State.eachDistrict (s : State) (f : District → State → State) : State :=
  f 3 (f 2 (f 1 (f 0 s)))

/-- The station is halted while a cause is present (R164). -/
def State.halted (s : State) : Bool := s.halt.start || s.halt.lineStop || s.halt.supply

/-- Whether some district is in a state. -/
def State.anyDistrict (s : State) (st : DistrictState) : Bool :=
  allDistricts.any (fun k => (s.record k).state == st)

/-- The districts in QUEUED, in number order. -/
def State.queuedDistricts (s : State) : List District :=
  allDistricts.filter (fun k => (s.record k).state == .queued)

/-- The supply group of the station.  Read only where a configuration is held: no frame is built and no
group frame is accepted without one (R116, R118). -/
def State.group (s : State) : Fin 16 :=
  match s.config with
  | some c => c.group
  | none => 0

/-- The station number ID.  Read only where a configuration is held (R116, R122). -/
def State.stationId (s : State) : StationNumber :=
  match s.config with
  | some c => c.id
  | none => 0

/-- The budget B (R143).  Read only where a configuration is held. -/
def State.budget (s : State) : Nat :=
  match s.config with
  | some c => c.budget
  | none => 0

/-- The trip level L = 1000 + 500 × TRIP mA (R16, R182). -/
def StationConfig.level (c : StationConfig) : Nat := 1000 + 500 * c.trip.val

/-- Bit k of REV (R182). -/
def StationConfig.reverses (c : StationConfig) (k : District) : Bool := c.rev.val / 2 ^ k.val % 2 == 1

/-- Loading a timer that runs whole ms from its own start. -/
def Timer.ticked (t : Timer) : Timer := t.map (· - 1)

/-- Whole ms left on a timer of `us` microseconds: a ms begun counts (R38, log entry 8). -/
def msLeftOf (us : Nat) : Nat := (us + (Config.ms - 1)) / Config.ms

/-- The qualifier of an input (01 1.6). -/
def State.qualifier (s : State) : InputPin → Qualifier
  | .stop => s.stopQ
  | .resume => s.resumeQ
  | .release => s.releaseQ
  | .cnf k => s.cnfQ.get k

def State.setQualifier (s : State) (pin : InputPin) (q : Qualifier) : State :=
  match pin with
  | .stop => { s with stopQ := q }
  | .resume => { s with resumeQ := q }
  | .release => { s with releaseQ := q }
  | .cnf k => { s with cnfQ := s.cnfQ.set k q }

/-- STOP/ is asserted while its debounced level is low; unsettled counts as not asserted (R12, R13). -/
def State.stopAsserted (s : State) : Bool := s.stopQ.settled == some .low

/-- The debounce time of an input (01, qualifier summary). -/
def debounceTime : InputPin → Nat
  | .stop => Config.tDEB
  | .resume => Config.tDEB
  | .release => Config.tDEB
  | .cnf _ => Config.tDEBC

end Sys2Proof.Machine
end

