-- ==== Sys2Proof/Machine/TripEngine.lean ====
section
/-! DEFINITION. The arithmetic of the trip engine (02): trip level and derived values, hard samples, the
excess accumulator, the ramp allowance and the probe. -/

namespace Sys2Proof.Machine

/-- What the engine reports of a sample in LIVE or RAMPING (R22 to R27). -/
inductive Detection where
  | hard
  | overload
  | inrush
  | early
deriving DecidableEq, Repr

/-- The two probe verdicts (R33, R34). -/
inductive Verdict where
  | short
  | clear
deriving DecidableEq, Repr

/-- The current of a sample, s = 10 × c mA (R2). -/
def current (c : Code) : Nat := 10 * c.toNat

/-- The hard ceiling H = min(3L, 10000) mA (R17). -/
def hardCeiling (l : Nat) : Nat := min (3 * l) 10000

/-- The trip bound T = 8 × L (R17). -/
def tripBound (l : Nat) : Nat := 8 * l

/-- The decay D = L div 8 (R17). -/
def decay (l : Nat) : Nat := l / 8

/-- The EARLY threshold TE = T div 4 (R17). -/
def earlyThreshold (l : Nat) : Nat := tripBound l / 4

/-- The ramp allowance A = L − (L × k) div 64 (R29). -/
def rampAllowance (l k : Nat) : Nat := l - l * k / 64

/-- A sample is hard when its code is CSAT or its current is at or above H (R21). -/
def isHard (l : Nat) (c : Code) : Bool := c.toNat == Config.CSAT || decide (hardCeiling l ≤ current c)

/-- The accumulator's update against the level in force Leff = L + A (R23, R24). -/
def accumulate (l allowance : Nat) (c : Code) (e : Nat) : Nat :=
  if l + allowance < current c then min (e + (current c - (l + allowance))) (tripBound l)
  else e - min e (decay l)

/-- One sample in LIVE or RAMPING: the hard test first, then the accumulator, at most one detection
(R22 to R27).  `allowance` is 0 in LIVE; `full` is what E at T is reported as; `mayEarly` says that the
district may raise EARLY (R26). -/
def Engine.sample (l allowance : Nat) (full : Detection) (mayEarly : Bool) (c : Code) (g : Engine) :
    Engine × Option Detection :=
  let run := if isHard l c then g.hardRun + 1 else 0
  if Config.NHARD ≤ run then ({ g with hardRun := 0 }, some .hard)
  else
    let e := accumulate l allowance c g.excess
    let g' := { g with excess := e, hardRun := run }
    if e = tripBound l then (g', some full)
    else if mayEarly && decide (earlyThreshold l ≤ e) then (g', some .early)
    else (g', none)

/-- What a probe sample leads to: the probe goes on, or it ends with a verdict. -/
inductive ProbeStep where
  | goesOn (p : Probe)
  | ends (v : Verdict)
deriving DecidableEq, Repr

/-- One probe sample (R32 to R34): p1 is taken and not counted; a hard sample among p2 to p4 ends the probe
with SHORT; after p4 the mean of p2 to p4 is judged against L. -/
def Probe.sample (l : Nat) (c : Code) (p : Probe) : ProbeStep :=
  if p.taken = 0 then .goesOn { taken := 1, sum := p.sum }
  else if isHard l c then .ends .short
  else
    let sum := p.sum + current c
    if Config.NPROBE ≤ p.taken + 1 then
      if l ≤ sum / 3 then .ends .short else .ends .clear
    else .goesOn { taken := p.taken + 1, sum := sum }

/-- The engine at gate-off: E and the hard-run counter 0, no probe record (R36). -/
def Engine.cleared : Engine := { excess := 0, hardRun := 0, probe := none }

/-- The engine at the gate-on of a probe pulse: a fresh probe record (R32, R37). -/
def Engine.probing : Engine := { excess := 0, hardRun := 0, probe := some { taken := 0, sum := 0 } }

end Sys2Proof.Machine
end

