-- ==== Sys2Proof/Machine/Flags.lean ====
section
/-! DEFINITION. What the part shows: gates, lamps, ALERT/, the codes and condition bits of an ST frame
(R40, R193, R198 to R200), and what a TR frame's DATA carries (R45). -/

namespace Sys2Proof.Machine

/-- GATEk is on only in LIVE, in RAMPING and inside the probe pulse (R40). -/
def DistrictRecord.gate (d : DistrictRecord) : Bool :=
  match d.state with
  | .live => true
  | .ramping => true
  | .probing => d.phase == .pulse
  | .halted => false
  | .dark => false
  | .cooling => false
  | .queued => false
  | .contend => false
  | .switching => false
  | .locked => false

/-- The output GATEk. -/
def State.gate (s : State) (k : District) : Bool := (s.record k).gate

/-- Whether a district's lamp is lit in a phase of the cycle (R198). -/
def lampLit (st : DistrictState) (phase : Nat) : Bool :=
  match st with
  | .live => true
  | .ramping => phase % 2 == 0
  | .probing => phase % 2 == 0
  | .contend => phase % 2 == 0
  | .switching => phase % 2 == 0
  | .cooling => decide (phase % 8 < 4)
  | .queued => decide (phase % 8 < 4)
  | .locked => phase == 0 || phase == 2
  | .dark => false
  | .halted => false

/-- The output LAMPk (R198). -/
def State.lamp (s : State) (k : District) : Bool := lampLit (s.record k).state s.lampPhase

/-- The ALERT/ output: pulled low while the latch is set (R193).  true is "pulled low". -/
def State.alertPulledLow (s : State) : Bool := s.alert

/-- The state codes of an ST frame (R199). -/
def DistrictState.code : DistrictState → Nat
  | .halted => 0
  | .dark => 1
  | .live => 2
  | .cooling => 3
  | .probing => 4
  | .queued => 5
  | .ramping => 6
  | .contend => 7
  | .switching => 8
  | .locked => 9

/-- The fault codes of TR and ST frames (R41, R199). -/
def FaultKind.code : FaultKind → Nat
  | .none => 0
  | .hard => 1
  | .overload => 2
  | .inrush => 3
  | .probe => 4
  | .chatter => 5
  | .relay => 6

/-- F is present and below B (R200 CB_FLOOR). -/
def State.floorInForce (s : State) : Bool :=
  match s.ramp.floor with
  | some f => decide (f.value < s.budget)
  | none => false

/-- The condition bits of an ST frame (R200). -/
def State.conditionBits (s : State) : Nat :=
  Config.CB_STOP * s.halt.lineStop.toNat + Config.CB_SUPPLY * s.halt.supply.toNat +
    Config.CB_ALERT * s.alert.toNat + Config.CB_FLOOR * s.floorInForce.toNat

/-- WHERE of a frame the station builds: GRP and the district, ALL and SET 0 (R116). -/
def State.whereOf (s : State) (k : District) : Where :=
  { group := s.group, district := k, all := false, set := false }

/-- The TR of a district: fault kind just written in the high nibble, n in the low nibble (R45). -/
def State.trPost (s : State) (k : District) : Post :=
  { kind := .tr, prio := 0, loc := s.whereOf k,
    data := BitVec.ofNat 8 (16 * (s.record k).lastFault.code + (s.record k).n) }

/-- The RE of a district (R57). -/
def State.rePost (s : State) (k : District) : Post :=
  { kind := .re, prio := 0, loc := s.whereOf k, data := 0 }

/-- The FI of a district (R71). -/
def State.fiPost (s : State) (k : District) : Post :=
  { kind := .fi, prio := 0, loc := s.whereOf k, data := 0 }

/-- The RS of the station: district 0 (R175). -/
def State.rsPost (s : State) : Post := { kind := .rs, prio := 0, loc := s.whereOf 0, data := 0 }

/-- The ST of a district: the condition bits, and the district's state and last fault (R199). -/
def State.stPost (s : State) (k : District) : Post :=
  { kind := .st, prio := Fin.ofNat 16 s.conditionBits, loc := s.whereOf k,
    data := BitVec.ofNat 8 (16 * (s.record k).state.code + (s.record k).lastFault.code) }

/-- The urgency u = min(15, w div 128) of a district (R156). -/
def urgencyOf (w : Nat) : Nat := min Config.UMAX (w / Config.tURGEms)

/-- The RB's priority nibble 15 − u (R156). -/
def rbNibble (w : Nat) : Fin 16 := Fin.ofNat 16 (15 - urgencyOf w)

/-- The RB of a district: nibble 15 − u, the station's B as DATA (R156). -/
def State.rbPost (s : State) (k : District) : Post :=
  { kind := .rb, prio := rbNibble (s.record k).w, loc := s.whereOf k, data := BitVec.ofNat 8 s.budget }

end Sys2Proof.Machine
end

