-- ==== Sys2Proof/Machine/Queue.lean ====
section
/-! DEFINITION. The outgoing queue (07): rank, posting with replacement and overflow, withdrawal, the
offer at a contention attempt, the settling of an attempt, and emptying. -/

namespace Sys2Proof.Machine

/-- The rank of a frame: kind code first, then priority nibble, then WHERE; lower ranks ahead (R131). -/
def Post.rank (p : Post) : Nat := 4096 * p.kind.code + 256 * p.prio.val + p.loc.code

/-- A posted frame takes the place of a held one of the same kind and WHERE, or of the one RB (R132). -/
def Post.replaces (posted held : Post) : Bool :=
  posted.kind == held.kind && (posted.loc == held.loc || posted.kind == .rb)

/-- An entry added at its rank. -/
def insertByRank (e : Entry) : List Entry → List Entry
  | [] => [e]
  | x :: rest => if e.frame.rank < x.frame.rank then e :: x :: rest else x :: insertByRank e rest

/-- A new WAITING entry. -/
def Post.waiting (p : Post) : Entry := { frame := p, phase := .waiting }

/-- The entry after a replacement: a WAITING entry stays WAITING; an ON_LINE entry is marked changed (R133). -/
def Entry.replacedBy (e : Entry) (p : Post) : Entry :=
  { frame := p,
    phase := match e.phase with
      | .waiting => .waiting
      | .onLine _ => .onLine .changed }

/-- The tail: the last WAITING entry in rank order (R131). -/
def tailWaiting : List Entry → Option Entry
  | [] => none
  | e :: rest =>
    match tailWaiting rest with
    | some t => some t
    | none => if e.phase = .waiting then some e else none

/-- The queue without its tail. -/
def dropTailWaiting : List Entry → List Entry
  | [] => []
  | e :: rest =>
    match tailWaiting rest with
    | some _ => e :: dropTailWaiting rest
    | none => if e.phase = .waiting then rest else e :: rest

/-- What a posting leaves: the queue, and whether an RB was discarded by overflow (R134). -/
structure Posted where
  queue : List Entry
  rbLost : Bool
deriving DecidableEq, Repr

/-- A posting to a full queue without an entry to replace (R134). -/
def overflowPost (p : Post) (q : List Entry) : Posted :=
  match tailWaiting q with
  | some t =>
    if p.rank < t.frame.rank then
      { queue := insertByRank p.waiting (dropTailWaiting q), rbLost := t.frame.kind == .rb }
    else { queue := q, rbLost := p.kind == .rb }
  | none => { queue := q, rbLost := p.kind == .rb }

/-- A posting in RUN: replacement, else a new entry, else overflow (R132). -/
def postInto (p : Post) (q : List Entry) : Posted :=
  match q.find? (fun e => p.replaces e.frame) with
  | some e =>
    { queue := insertByRank (e.replacedBy p) (q.filter (fun x => !p.replaces x.frame)), rbLost := false }
  | none =>
    if q.length < Config.NQUEUE then { queue := insertByRank p.waiting q, rbLost := false }
    else overflowPost p q

/-- A posting by any block: taken in RUN, discarded on arrival in every other mode (R132).  When an RB is
discarded by overflow the ramp list unit is told, and its RB district becomes none (R134, R157). -/
def State.post (p : Post) (s : State) : State :=
  if s.mode = .run then
    let r := postInto p s.queue
    { s with queue := r.queue,
             ramp := { s.ramp with rbDistrict := if r.rbLost then none else s.ramp.rbDistrict } }
  else s

/-- What a withdrawal does to one entry (R137). -/
def Entry.withdrawnFor (kind : Kind) (k : District) (e : Entry) : Option Entry :=
  if e.frame.kind = kind ∧ e.frame.loc.district = k then
    match e.phase with
    | .waiting => none
    | .onLine _ => some { e with phase := .onLine .withdrawn }
  else some e

/-- A withdrawal of the frame of a kind for a district (R137). -/
def State.withdraw (kind : Kind) (k : District) (s : State) : State :=
  { s with queue := s.queue.filterMap (Entry.withdrawnFor kind k) }

/-- What the end of an attempt does to one entry (R136). -/
def Entry.settled (completed : Bool) (e : Entry) : Option Entry :=
  match e.phase with
  | .waiting => some e
  | .onLine .withdrawn => none
  | .onLine .changed => some { e with phase := .waiting }
  | .onLine .none => if completed then none else some { e with phase := .waiting }

/-- The end of an attempt: the ON_LINE entry is settled by its marks (R136). -/
def State.settleAttempt (completed : Bool) (s : State) : State :=
  { s with queue := s.queue.filterMap (Entry.settled completed) }

/-- Step 1 of an offer: the RB's nibble is set from its district's present urgency (R135). -/
def State.refreshedQueue (s : State) : List Entry :=
  s.queue.map (fun e =>
    if e.frame.kind = .rb then
      { e with frame := { e.frame with prio := rbNibble (s.record e.frame.loc.district).w } }
    else e)

/-- Steps 2 and 3 of an offer: the head, or the entry behind an RB that sits out (R135). -/
def offered (eligible : Bool) (q : List Entry) : Option Entry :=
  match q with
  | [] => none
  | e :: rest => if e.frame.kind = .rb ∧ eligible = false then rest.head? else some e

/-- The offered entry becomes ON_LINE with its marks clear (R135). -/
def putOnLine (p : Post) (q : List Entry) : List Entry :=
  q.map (fun e => if e.frame = p then { e with phase := .onLine .none } else e)

/-- Emptying: every entry is removed (R140). -/
def State.emptyQueue (s : State) : State := { s with queue := [] }

end Sys2Proof.Machine
end

