-- ==== Sys2Proof/Machine/Ramp.lean ====
section
/-! DEFINITION. The ramp list unit (08): the ramp list, the budget floor, the hold-off, the last-intent age,
eligibility, and the choice of the district that is offered with an RB. -/

namespace Sys2Proof.Machine

/-- The key of an entry is its station and district (R144). -/
def RampEntry.hasKey (e : RampEntry) (station : StationNumber) (k : District) : Bool :=
  e.station == station && e.district == k

def RampEntry.isOwn (e : RampEntry) : Bool := e.kind == .own

def RampEntry.isPeer (e : RampEntry) : Bool := !e.isOwn

/-- The life of a peer entry, in ms; an own entry has none (R142). -/
def RampEntry.life (e : RampEntry) : Option Nat :=
  match e.kind with
  | .own => none
  | .peer life => some life

/-- The ramp list unit changed by f. -/
def State.modRamp (s : State) (f : RampUnit → RampUnit) : State := { s with ramp := f s.ramp }

/-- Beff: min(B, F) while F is present, B while it is absent (R143). -/
def State.budgetInForce (s : State) : Nat :=
  match s.ramp.floor with
  | some f => min s.budget f.value
  | none => s.budget

/-- The count of the list is below Beff and the hold-off is idle (R154, R158). -/
def State.roomForRamp (s : State) : Bool :=
  decide (s.ramp.list.length < s.budgetInForce) && s.ramp.holdoff == none

/-- A QUEUED district of the station is eligible (R154). -/
def State.eligible (s : State) : Bool := s.roomForRamp && !s.halted

/-- The own entry of a district that enters RAMPING (R149). -/
def State.addOwnEntry (k : District) (s : State) : State :=
  s.modRamp (fun r => { r with list := r.list ++ [{ station := s.stationId, district := k, kind := .own }] })

/-- The own entry of a district that leaves RAMPING is removed (R149). -/
def State.removeOwnEntry (k : District) (s : State) : State :=
  s.modRamp (fun r => { r with list := r.list.filter (fun e => !(e.isOwn && e.district == k)) })

/-- The peer entry of a key is removed, if there is one (R147, R148). -/
def State.removePeerEntry (station : StationNumber) (k : District) (s : State) : State :=
  s.modRamp (fun r => { r with list := r.list.filter (fun e => !(e.isPeer && e.hasKey station k)) })

/-- The least life among the peer entries (R146). -/
def leastLife : List RampEntry → Option Nat
  | [] => none
  | e :: rest =>
    match e.life, leastLife rest with
    | some a, some b => some (min a b)
    | some a, none => some a
    | none, b => b

/-- The list without its first entry of this life: the earliest added among equals (R146). -/
def dropFirstOfLife (life : Nat) : List RampEntry → List RampEntry
  | [] => []
  | e :: rest => if e.life = some life then rest else e :: dropFirstOfLife life rest

/-- A peer RB recorded in the list: refreshed, added, or put in place of the peer entry with the least life
(R145, R146). -/
def recordPeerRamp (station : StationNumber) (k : District) (list : List RampEntry) : List RampEntry :=
  let fresh : RampEntry := { station := station, district := k, kind := .peer Config.tPEERms }
  if list.any (fun e => e.hasKey station k) then
    list.map (fun e => if e.hasKey station k then { e with kind := .peer Config.tPEERms } else e)
  else if list.length < Config.NLIST then list ++ [fresh]
  else
    match leastLife list with
    | some life => dropFirstOfLife life list ++ [fresh]
    | none => list

/-- The clamp of an RB's DATA to 1 to 16 (R151). -/
def clampBudget (data : Byte) : Nat := max 1 (min data.toNat 16)

/-- The floor rule (R151). -/
def floorAfter (data : Byte) (floor : Option Floor) : Option Floor :=
  let heard : Floor := { value := clampBudget data, life := Config.tFLOORms }
  match floor with
  | none => some heard
  | some f => if heard.value ≤ f.value then some heard else some f

/-- The inrush hold-off is started or restarted (R152). -/
def State.startHoldoff (s : State) : State :=
  s.modRamp (fun r => { r with holdoff := some Config.tHOLDOFFms })

/-- A flip intent of the group has been heard or sent: the age is 0 (R153). -/
def State.heardIntent (s : State) : State := s.modRamp (fun r => { r with intentAge := 0 })

/-- The whole list is emptied (R150). -/
def State.emptyRampList (s : State) : State := s.modRamp (fun r => { r with list := [] })

/-- The longer wait of two districts; the first named keeps a tie (R155). -/
def longerWait (s : State) (best : Option District) (k : District) : Option District :=
  match best with
  | none => some k
  | some j => if (s.record j).w < (s.record k).w then some k else some j

/-- The QUEUED district with the largest w, the lower number among equals (R155, R161). -/
def State.longestQueued (s : State) : Option District := s.queuedDistricts.foldl (longerWait s) none

/-- The chosen district: the QUEUED one with the largest w, except that among districts whose w stands at
WMAX the one already chosen is kept (R155). -/
def State.choice (s : State) : Option District :=
  match s.ramp.chosen with
  | some c =>
    if (s.record c).state = .queued ∧ (s.record c).w = Config.WMAX then some c else s.longestQueued
  | none => s.longestQueued

/-- The unit makes its choice again and, in RUN, posts an RB for a chosen district that is not the RB
district (R155, R156).  The RB district is set first, so that an overflow of this very posting can make it
none again (R157). -/
def State.chooseAgain (s : State) : State :=
  if s.mode = .run then
    let s := s.modRamp (fun r => { r with chosen := s.choice })
    match s.ramp.chosen with
    | none => s
    | some k =>
      if s.ramp.rbDistrict = some k then s
      else (s.modRamp (fun r => { r with rbDistrict := some k })).post (s.rbPost k)
  else s

/-- The RB posted for a district that leaves QUEUED is withdrawn, and the RB district becomes none if it
named that district (R52, R137, R155). -/
def State.withdrawRb (k : District) (s : State) : State :=
  (s.withdraw .rb k).modRamp
    (fun r => { r with rbDistrict := if r.rbDistrict = some k then none else r.rbDistrict })

/-- One tick of the millisecond clock for one entry: a peer life loses 1 ms (R142, R148). -/
def RampEntry.tick (e : RampEntry) : RampEntry :=
  match e.kind with
  | .own => e
  | .peer life => { e with kind := .peer (life - 1) }

/-- One tick of the millisecond clock for the unit: peer lives, F's life and the hold-off lose 1 ms, the
last-intent age gains 1 ms up to AGEMAX (R142).  A life at 0 stands until its expiry is taken. -/
def RampUnit.tick (r : RampUnit) : RampUnit :=
  { r with list := r.list.map RampEntry.tick,
           floor := r.floor.map (fun f => { f with life := f.life - 1 }),
           holdoff := r.holdoff.map (· - 1),
           intentAge := min (r.intentAge + 1) Config.AGEMAX }

/-- One tick of the millisecond clock for a district: w gains 1 ms in QUEUED, up to WMAX (R52, R142). -/
def DistrictRecord.tick (d : DistrictRecord) : DistrictRecord :=
  if d.state = .queued then { d with w := min (d.w + 1) Config.WMAX } else d

end Sys2Proof.Machine
end

