-- ==== Sys2Proof/Machine/District.lean ====
section
/-! DEFINITION. The moves of a district (03, 04): the entry to each state with everything the spec gives it,
trips and counted failures, relay faults, changeover, the pardon, release and hold.  Each takes the state
to a state; each is the step of one district in the sense of R67. -/

namespace Sys2Proof.Machine

/-- The ALERT latch is set (R193, R194). -/
def State.setAlert (s : State) : State := { s with alert := true }

/-- What leaving a state takes with it, whatever the state entered (R52, R61, R74, R76, R85, R137, R149): a
ramp's own entry is removed; a pending RB or FI is withdrawn. -/
def State.depart (k : District) (s : State) : State :=
  match (s.record k).state with
  | .ramping => s.removeOwnEntry k
  | .queued => s.withdrawRb k
  | .contend => s.withdraw .fi k
  | .halted => s
  | .dark => s
  | .live => s
  | .cooling => s
  | .probing => s
  | .switching => s
  | .locked => s

/-- The move of district k to a gate-off state: the trip engine is cleared (R36), the record takes its new
values, and what the old state had is taken with it (R67 orders 1 to 4). -/
def State.moveOff (k : District) (f : DistrictRecord → DistrictRecord) (s : State) : State :=
  ((s.depart k).setEngine k Engine.cleared).modRecord k f

/-- The timers and the watch that stop when a district leaves its state (R46, R61, R82, R166). -/
def DistrictRecord.stopped (d : DistrictRecord) : DistrictRecord :=
  { d with settle := none, watch := .none, watchLeft := 0, contend := none, pardonWindow := false }

/-- The flags of a contest cleared (R43, R58, R61, R83, R84, R166). -/
def DistrictRecord.uncontested (d : DistrictRecord) : DistrictRecord :=
  { d with yielded := false, probeFlipTried := false }

/-- Entry to COOLING by a trip or a counted failure, with the full tCOOL(n) for the n now held (R43, R44,
R47).  `window` opens the pardon window of a trip (R87). -/
def DistrictRecord.toCooling (window : Bool) (d : DistrictRecord) : DistrictRecord :=
  { d.stopped.uncontested with
    state := .cooling, cooling := Config.tCOOL d.n, pardoned := false,
    pardonWindow := window }

/-- Entry to COOLING at the end of a halt: no trip, so no pardon window, and pardoned keeps its value
(R47, R88, R170). -/
def DistrictRecord.toCoolingAfterHalt (d : DistrictRecord) : DistrictRecord :=
  { d.stopped.uncontested with state := .cooling, cooling := Config.tCOOL d.n }

/-- Entry to LOCKED (R58). -/
def DistrictRecord.toLocked (d : DistrictRecord) : DistrictRecord :=
  { d.stopped.uncontested with state := .locked }

/-- Entry to DARK (R61). -/
def DistrictRecord.toDark (d : DistrictRecord) : DistrictRecord :=
  { d.stopped.uncontested with state := .dark }

/-- Entry to PROBING: phase WAIT, gate off (R49). -/
def DistrictRecord.toProbing (d : DistrictRecord) : DistrictRecord :=
  { d.stopped with state := .probing, phase := .wait }

/-- Entry to QUEUED: w 0, probe-flip-tried clear (R52).  yielded is carried (R83). -/
def DistrictRecord.toQueued (d : DistrictRecord) : DistrictRecord :=
  { d.stopped with state := .queued, w := 0, probeFlipTried := false }

/-- Entry to RAMPING: k 0 (R53). -/
def DistrictRecord.toRamping (d : DistrictRecord) : DistrictRecord :=
  { d.stopped with state := .ramping, k := 0, rampSub := 0 }

/-- Entry to LIVE from SWITCHING or from a yield, with a watch of tWATCH; the settle window stays stopped
(R74, R80, R82). -/
def DistrictRecord.toLive (watch : WatchKind) (d : DistrictRecord) : DistrictRecord :=
  { d.stopped with state := .live, watch := watch, watchLeft := Config.tWATCH }

/-- Ramp completion: k 64, LIVE, the settle window started, yielded cleared (R46, R54, R83). -/
def DistrictRecord.rampComplete (d : DistrictRecord) : DistrictRecord :=
  { d.stopped with state := .live, k := Config.kEND, rampSub := 0, settle := some Config.tSETTLE,
                   yielded := false }

/-- Entry to CONTEND with its origin recorded and the contend timer started (R71). -/
def DistrictRecord.toContend (origin : Origin) (d : DistrictRecord) : DistrictRecord :=
  { d.stopped with state := .contend, origin := origin, contend := some Config.tCONTEND }

/-- Entry to SWITCHING (R78). -/
def DistrictRecord.toSwitching (d : DistrictRecord) : DistrictRecord :=
  { d.stopped with state := .switching }

/-- Entry to LOCKED: the record, and the report to the indication unit, which sets the latch (R58, R194). -/
def State.enterLocked (k : District) (s : State) : State :=
  (s.moveOff k DistrictRecord.toLocked).setAlert

def State.enterDark (k : District) (s : State) : State := s.moveOff k DistrictRecord.toDark

def State.enterQueued (k : District) (s : State) : State := s.moveOff k DistrictRecord.toQueued

/-- The relay of a reversing district stands where POLk does not command it (R85); nothing is compared while
the reading is none, or before POLk is driven. -/
def State.relayDisagrees (s : State) (k : District) : Bool :=
  (s.record k).reversing &&
    match (s.relay k).cnf, (s.relay k).pol with
    | some reading, some pol => reading != pol
    | _, _ => false

/-- One TR posted for the district, with the fault just written and the n now held (R45). -/
def State.postTr (k : District) (s : State) : State := s.post (s.trPost k)

/-- One RE posted for the district (R57). -/
def State.postRe (k : District) (s : State) : State := s.post (s.rePost k)

/-- A relay fault that takes the district to LOCKED: last fault RELAY, n unchanged, TR posted, ALERT latch set
(R58, R81, R85). -/
def State.lockForRelay (k : District) (s : State) : State :=
  ((s.modRecord k (fun d => { d with lastFault := .relay })).enterLocked k).postTr k

/-- Entry to PROBING, and before the phase WAIT begins the check of the relay (R49, R85). -/
def State.enterProbing (k : District) (s : State) : State :=
  let s := s.moveOff k DistrictRecord.toProbing
  if s.relayDisagrees k then s.lockForRelay k else s

/-- A fault recorded with its kind and the n after it, and the entry to COOLING, or to LOCKED at NLOCK, with
its TR (R41, R43, R44, R45).  `window` opens the pardon window of a trip. -/
def State.failWith (k : District) (fault : FaultKind) (n : Nat) (window : Bool) (s : State) : State :=
  let s := s.modRecord k (fun d => { d with lastFault := fault, n := n })
  if Config.NLOCK ≤ n then (s.enterLocked k).postTr k
  else (s.moveOff k (DistrictRecord.toCooling window)).postTr k

/-- n after a counted failure: one more, never above NLOCK (R44). -/
def DistrictRecord.failedCount (d : DistrictRecord) : Nat := min (d.n + 1) Config.NLOCK

/-- How much of tCOOL(n) has run (R87), in whole ms: cooling remaining counts down in whole ms (R47). -/
def DistrictRecord.coolingRun (d : DistrictRecord) : Nat :=
  Config.tCOOL d.n - Config.ms * msLeftOf d.cooling

/-- Cooling remaining after a pardon: tPCOOL, counted from the last whole ms that ran since the trip, which is
at most the tenth, so that the district probes at most tPARDON + tPCOOL after the trip (R47, R88). -/
def DistrictRecord.pardonedCooling (d : DistrictRecord) : Nat :=
  let ran := Config.tCOOL d.n - d.cooling
  min d.cooling (Config.tPCOOL + min (ran / Config.ms * Config.ms) Config.tPARDON - ran)

/-- The pardon of a trip (R88): cooling at most tPCOOL, n as before the trip's increment, pardoned set; a second
FI has no effect, so the window closes.  A trip that began a new incident left n at 0, and n stays 0. -/
def DistrictRecord.pardon (d : DistrictRecord) : DistrictRecord :=
  { d with cooling := d.pardonedCooling, n := d.n - 1, pardoned := true, pardonWindow := false }

/-- A non-reversing district in the COOLING of a trip that has not been pardoned (R87, R88). -/
def DistrictRecord.pardonable (d : DistrictRecord) : Bool :=
  d.state == .cooling && !d.reversing && !d.pardoned && d.pardonWindow

/-- The window before the trip: the last-intent age is tPARDON or less at the trip (R87). -/
def State.pardonAtTrip (k : District) (s : State) : State :=
  if (s.record k).pardonable ∧ s.ramp.intentAge ≤ Config.tPARDONms then
    s.modRecord k DistrictRecord.pardon
  else s

/-- The window after the trip: an FI while the pardon window is open (R87).  The window closes when more than
tPARDON of the cooling has run, in whole ms: that is PARDON_WINDOW_END (R88, log entry 9). -/
def State.pardonOnIntent (k : District) (s : State) : State :=
  if (s.record k).pardonable then s.modRecord k DistrictRecord.pardon else s

/-- A trip in LIVE (R42 to R44): a counted failure while the settle window or the flip watch runs, else a new
incident with n 0; then the pardon for the window before the trip. -/
def State.tripLive (k : District) (fault : FaultKind) (s : State) : State :=
  let d := s.record k
  let counted := d.settle.isSome || d.watch == .flip
  (s.failWith k fault (if counted then d.failedCount else 0) (!d.reversing)).pardonAtTrip k

/-- A ramp ended by a trip: a counted failure (R55, R56), and the pardon for the window before the trip. -/
def State.tripRamp (k : District) (fault : FaultKind) (s : State) : State :=
  let d := s.record k
  (s.failWith k fault d.failedCount (!d.reversing)).pardonAtTrip k

/-- A counted failure that is no trip: a SHORT verdict or a chatter (R44, R51, R79). -/
def State.countFailure (k : District) (fault : FaultKind) (s : State) : State :=
  s.failWith k fault (s.record k).failedCount false

/-- On entry to SWITCHING the changeover unit inverts POLk, sets commanded and starts the confirm timer; an
undriven POLk counts as low (R70, R78). -/
def Relay.switch (r : Relay) : Relay :=
  { r with pol := some ((r.pol.getD .low).invert), commanded := true, confirm := some Config.tCONFIRM }

/-- Entry to SWITCHING (R78); from CONTEND the district's FI is withdrawn (R76, R137). -/
def State.enterSwitching (k : District) (s : State) : State :=
  (s.moveOff k DistrictRecord.toSwitching).modRelay k Relay.switch

/-- Entry to CONTEND (R71).  A ramp's RE is posted before the FI.  In QUIET the district passes on to
SWITCHING in the same step, without an FI and without the contend timer (R72). -/
def State.enterContend (k : District) (origin : Origin) (s : State) : State :=
  let cut := s.moveOff k (DistrictRecord.toContend origin)
  let s' := if (s.record k).state = .ramping then cut.postRe k else cut
  if s.mode = .quiet then s'.enterSwitching k else s'.post (s'.fiPost k)

/-- A detection in LIVE (R42). -/
def State.detectLive (k : District) (det : Detection) (s : State) : State :=
  let d := s.record k
  match det with
  | .hard =>
    if d.reversing = true ∧ d.watch ≠ .flip then s.enterContend k .live else s.tripLive k .hard
  | .overload => s.tripLive k .overload
  | .early => s.enterContend k .live
  | .inrush => s

/-- A detection in RAMPING (R55, R56). -/
def State.detectRamping (k : District) (det : Detection) (s : State) : State :=
  match det with
  | .hard => if (s.record k).reversing then s.enterContend k .ramp else s.tripRamp k .hard
  | .inrush => s.startHoldoff.tripRamp k .inrush
  | .overload => s
  | .early => s

/-- A probe verdict (R50, R51, R84). -/
def State.probeVerdict (k : District) (v : Verdict) (s : State) : State :=
  match v with
  | .clear => s.enterQueued k
  | .short =>
    let d := s.record k
    if d.reversing = true ∧ d.probeFlipTried = false then
      (s.modRecord k (fun d => { d with probeFlipTried := true })).enterContend k .probe
    else s.countFailure k .probe

/-- Entry to LIVE with a watch, gate on from E = 0 (R37, R74, R80). -/
def State.enterLive (k : District) (watch : WatchKind) (s : State) : State :=
  s.moveOff k (DistrictRecord.toLive watch)

/-- The exit by origin that a yield and a confirm share (R74, R80). -/
def State.exitByOrigin (k : District) (watch : WatchKind) (s : State) : State :=
  match (s.record k).origin with
  | .live => s.enterLive k watch
  | .ramp => s.enterQueued k
  | .probe => s.enterProbing k

/-- A CONTEND district hears a flip intent of the group (R74, R75): it yields if yielded is clear, and keeps
contending if it is set. -/
def State.hearIntentInContend (k : District) (s : State) : State :=
  let d := s.record k
  if d.state = .contend ∧ d.yielded = false then
    (s.modRecord k (fun d => { d with yielded := true })).exitByOrigin k .yield
  else s

/-- A flip is counted (R79): the window opens if it is stopped, the count goes up and stops at NCHATTER. -/
def Relay.countFlip (r : Relay) : Relay :=
  { r with confirm := none,
           chatter := if r.chatter.isNone then some Config.tCHATTER else r.chatter,
           flipCount := min (r.flipCount + 1) Config.NCHATTER }

/-- The flip count back to 0 and the chatter window stopped (R79). -/
def Relay.chatterOver (r : Relay) : Relay := { r with flipCount := 0, chatter := none }

/-- The confirm of a SWITCHING district (R62, R79, R80). -/
def State.confirmSwitching (k : District) (s : State) : State :=
  let s := s.modRelay k Relay.countFlip
  if (s.record k).hold then (s.modRecord k (fun d => { d with n := 0 })).enterDark k
  else if Config.NCHATTER ≤ (s.relay k).flipCount then
    (s.modRelay k Relay.chatterOver).countFailure k .chatter
  else (s.modRecord k (fun d => { d with yielded := false })).exitByOrigin k .flip

/-- Whether a district is HALTED with its changeover still going on (R168). -/
def DistrictRecord.pendingInHalt (d : DistrictRecord) : Bool := d.state == .halted && d.confirmPending

/-- A HALTED district leaves HALTED to the state its return class names (R170).  A confirm-pending district
stays (R171). -/
def State.leaveHalted (k : District) (s : State) : State :=
  let d := s.record k
  if d.state = .halted ∧ d.confirmPending = false then
    match d.returnClass with
    | .queue => s.enterQueued k
    | .cool => s.moveOff k DistrictRecord.toCoolingAfterHalt
    | .probe => s.enterProbing k
    | .dark => s.enterDark k
    | .locked => s.enterLocked k
  else s

/-- A changeover inside a halt is settled with a return class; if the station is not halted the district
leaves at once (R168, R171). -/
def State.settlePending (k : District) (cls : ReturnClass) (s : State) : State :=
  let s := s.modRecord k (fun d => { d with confirmPending := false, returnClass := cls })
  if s.halted then s else s.leaveHalted k

/-- The confirm of a confirm-pending district: counted, not judged (R79, R86, R168). -/
def State.confirmPendingFlip (k : District) (s : State) : State :=
  let s := (s.modRelay k Relay.countFlip).modRecord k (fun d => { d with yielded := false })
  s.settlePending k (if (s.record k).hold then .dark else .queue)

/-- The confirm timer runs out (R81, R168). -/
def State.confirmRunsOut (k : District) (s : State) : State :=
  let d := s.record k
  let stopped := s.modRelay k (fun r => { r with confirm := none })
  if d.state = .switching then stopped.lockForRelay k
  else if d.pendingInHalt then
    (stopped.modRecord k (fun d => { d with lastFault := .relay })).setAlert.settlePending k .locked
  else s

/-- A RELAY fault outside SWITCHING and confirm-pending, by the district's state (R85). -/
def State.relayFault (k : District) (s : State) : State :=
  let d := s.record k
  match d.state with
  | .locked => s.modRecord k (fun d => { d with lastFault := .relay })
  | .halted =>
    if d.confirmPending then s
    else s.modRecord k (fun d => { d with lastFault := .relay, returnClass := .locked })
  | .switching => s
  | .live => s.lockForRelay k
  | .ramping => s.lockForRelay k
  | .probing => s.lockForRelay k
  | .cooling => s.lockForRelay k
  | .queued => s.lockForRelay k
  | .contend => s.lockForRelay k
  | .dark => s.lockForRelay k

/-- A CNF reading judged against POLk (R79, R85, R168): a confirm in SWITCHING and confirm-pending, a check
everywhere else. -/
def State.judgeReading (k : District) (s : State) : State :=
  let d := s.record k
  let agrees := (s.relay k).cnf == (s.relay k).pol
  if d.state = .switching then (if agrees then s.confirmSwitching k else s)
  else if d.pendingInHalt then (if agrees then s.confirmPendingFlip k else s)
  else if s.relayDisagrees k then s.relayFault k
  else s

/-- A debounced CNFk level delivered to the changeover unit (R15, R69, R70).  A non-reversing district
disregards it.  The first level of a district whose POLk is not driven yet is adopted. -/
def State.cnfDelivered (k : District) (level : Level) (s : State) : State :=
  if (s.record k).reversing then
    let s := s.modRelay k (fun r => { r with cnf := some level })
    if (s.relay k).pol = none then s.modRelay k (fun r => { r with pol := some level })
    else s.judgeReading k
  else s

/-- A release of district k (R59). -/
def State.release (k : District) (s : State) : State :=
  let d := s.record k
  if d.state = .locked then
    let s := s.modRecord k (fun d => { d with n := 0 })
    if d.hold then s.enterDark k else s.enterProbing k
  else if d.state = .halted ∧ d.confirmPending = false ∧ d.returnClass = .locked then
    s.modRecord k (fun d => { d with n := 0, returnClass := if d.hold then .dark else .probe })
  else s

/-- HD with SET = 1 for district k (R61 to R63). -/
def State.holdSet (k : District) (s : State) : State :=
  let d := s.record k
  match d.state with
  | .halted =>
    s.modRecord k (fun d =>
      { d with hold := true, n := 0,
               returnClass := if d.confirmPending then d.returnClass else .dark })
  | .switching => s.modRecord k (fun d => { d with hold := true })
  | .ramping =>
    ((s.modRecord k (fun d => { d with hold := true, n := 0 })).enterDark k).postRe k
  | .dark => s.modRecord k (fun d => { d with hold := true, n := 0 })
  | .live => (s.modRecord k (fun d => { d with hold := true, n := 0 })).enterDark k
  | .cooling =>
    (s.modRecord k (fun d => { d with hold := true, n := 0, pardoned := false })).enterDark k
  | .probing => (s.modRecord k (fun d => { d with hold := true, n := 0 })).enterDark k
  | .queued => (s.modRecord k (fun d => { d with hold := true, n := 0 })).enterDark k
  | .contend => (s.modRecord k (fun d => { d with hold := true, n := 0 })).enterDark k
  | .locked => (s.modRecord k (fun d => { d with hold := true, n := 0 })).enterDark k

/-- HD with SET = 0 for district k (R64). -/
def State.holdClear (k : District) (s : State) : State :=
  let d := s.record k
  if d.hold then
    let s := s.modRecord k (fun d => { d with hold := false })
    if d.state = .dark then (s.modRecord k (fun d => { d with n := 0 })).enterProbing k
    else if d.state = .halted ∧ d.confirmPending = false ∧ d.returnClass = .dark then
      s.modRecord k (fun d => { d with returnClass := .probe })
    else s
  else s

/-- Ramp completion (R54): LIVE with the gate on and E carried over (R28), the own entry removed, an RE posted. -/
def State.completeRamp (k : District) (s : State) : State :=
  ((s.depart k).modRecord k DistrictRecord.rampComplete).postRe k

/-- A district starts its ramp (R53, R149, R158): gate on from E = 0, own entry added, a pending RB for it
withdrawn as it leaves QUEUED. -/
def State.startRamp (k : District) (s : State) : State :=
  (s.moveOff k DistrictRecord.toRamping).addOwnEntry k

/-- The direct start of QUIET (R161): one at a time, when a QUEUED district is eligible and none of the
station's districts is RAMPING. -/
def State.directStart (s : State) : State :=
  if s.mode = .quiet ∧ s.eligible = true ∧ s.anyDistrict .ramping = false then
    match s.longestQueued with
    | some k => s.startRamp k
    | none => s
  else s

/-- What the ramp list unit does after the districts' steps of a command (R155, R161): its choice is made
again if a district entered or left QUEUED between `before` and now, after the postings of the same step;
in QUIET the direct start is tested (log entry 6). -/
def State.followUp (before now : State) : State :=
  let chosen := if before.queuedDistricts = now.queuedDistricts then now else now.chooseAgain
  chosen.directStart

end Sys2Proof.Machine
end

