-- ==== Sys2Proof/Machine/Halt.lean ====
section
/-! DEFINITION. Halts (09): the halt-cause set, the entry of every district to HALTED with its return class,
the end of a halt, and the entry of the station to QUIET (R189), which may end one. -/

namespace Sys2Proof.Machine

/-- The halt causes (R164). -/
inductive HaltCause where
  | start
  | lineStop
  | supply
deriving DecidableEq, Repr

/-- The set with one cause present or absent. -/
def HaltCauses.put (h : HaltCauses) (c : HaltCause) (present : Bool) : HaltCauses :=
  match c with
  | .start => { h with start := present }
  | .lineStop => { h with lineStop := present }
  | .supply => { h with supply := present }

/-- The return class by the state left (R167).  A SWITCHING district has none yet and a HALTED one keeps its
own. -/
def DistrictRecord.classOnHalt (d : DistrictRecord) : ReturnClass :=
  match d.state with
  | .live => .queue
  | .ramping => .queue
  | .queued => .queue
  | .contend => if d.origin = .probe then .cool else .queue
  | .cooling => .cool
  | .probing => .cool
  | .dark => .dark
  | .locked => .locked
  | .switching => d.returnClass
  | .halted => d.returnClass

/-- The record of a district that enters HALTED (R166 to R168). -/
def DistrictRecord.toHalted (d : DistrictRecord) : DistrictRecord :=
  { d.stopped.uncontested with
    state := .halted, returnClass := d.classOnHalt, confirmPending := d.state == .switching }

/-- A district enters HALTED (R166 to R168); the RE of a cut ramp is posted (R57).  One that is still HALTED
and confirm-pending from an earlier halt stays as it is (R171). -/
def State.enterHalted (k : District) (s : State) : State :=
  if (s.record k).state = .halted then s
  else
    let cut := s.moveOff k DistrictRecord.toHalted
    if (s.record k).state = .ramping then cut.postRe k else cut

/-- A halt begins: every district enters HALTED (R165). -/
def State.beginHalt (s : State) : State := s.eachDistrict State.enterHalted

/-- A halt ends: every district that is not confirm-pending leaves HALTED (R165, R170). -/
def State.endHalt (s : State) : State := s.eachDistrict State.leaveHalted

/-- A cause is set (R165).  The setting of LINE_STOP also empties the ramp list and withdraws a pending RS,
whether or not the station was halted (R150, R172).  DESIGN CHOICE (log entry 29): R172 gives no order between
the withdrawal of the RS and the districts' own postings; the RS is withdrawn first. -/
def State.setCause (c : HaltCause) (s : State) : State :=
  let marked := { s with halt := s.halt.put c true }
  let marked := if c = .lineStop then marked.emptyRampList.withdraw .rs 0 else marked
  if s.halted then marked else marked.beginHalt

/-- A cause is cleared; the last one cleared ends the halt (R165), and the moment is marked for the order of R178
(log entry 31). -/
def State.clearCause (c : HaltCause) (s : State) : State :=
  let cleared := { s with halt := s.halt.put c false }
  if s.halted = true ∧ cleared.halted = false then { cleared with haltEnded := true }.endHalt else cleared

/-- The entry to QUIET, in the order of R189: mode, START, the queue emptied, RB district none, ALERT latch;
then, if the set became empty by it, the districts leave HALTED.  The transmitter holds no frame at an entry
(R112); the model has it IDLE (log entry 11). -/
def State.enterQuiet (s : State) : State :=
  let quiet : State :=
    { s with mode := .quiet, halt := s.halt.put .start false, queue := [],
             ramp := { s.ramp with rbDistrict := none, chosen := none },
             line := { s.line with tx := none }, alert := true }
  if s.halted = true ∧ quiet.halted = false then quiet.endHalt else quiet

end Sys2Proof.Machine
end

