-- ==== Sys2Proof/Machine/Line.lean ====
section
/-! DEFINITION. The peer line (05): the level on the pin, the receiver's edges and characters, the
transmitter's attempts and their ends, and the break driver. -/

namespace Sys2Proof.Machine

def State.modLine (s : State) (f : LineInterface → LineInterface) : State := { s with line := f s.line }

def State.modRx (s : State) (f : Receiver → Receiver) : State :=
  s.modLine (fun l => { l with rx := f l.rx })

/-- The level the transmitter gives a slot of the frame in flight: dominant for 0, released for 1; released
after the last slot (R104). -/
def Sending.level (x : Sending) : Level :=
  if Config.tCHAR ≤ x.t then .high else (x.frame.rawChar x.char).slots.getD (x.t / Config.tBIT) .high

/-- The transmitter has reached the end of the 48th slot (R107). -/
def Sending.done (x : Sending) : Bool := decide (3 ≤ x.char) && decide (Config.tCHAR ≤ x.t)

/-- What the transmitter sends now: high when it is IDLE. -/
def State.txLevel (s : State) : Level :=
  match s.line.tx with
  | some x => x.level
  | none => .high

/-- The transmitter pulls the pin: in the dominant slots of a frame it sends, but not in the self-test, which
leaves the pin released (R90, R185). -/
def State.txPulls (s : State) : Bool := s.mode != .selfTest && s.txLevel == .low

def State.driverPulls (s : State) : Bool := s.line.driver != .off

/-- The station itself pulls the pin (R90). -/
def State.selfPulls (s : State) : Bool := s.txPulls || s.driverPulls

/-- The level on LINE: dominant while any station pulls it, this one included (R90). -/
def State.lineLevel (s : State) : Level := if s.line.pulled || s.selfPulls then .low else .high

/-- What the receiver reads: the loopback in SELFTEST, the pin in every other mode (R112). -/
def State.rxInput (s : State) : Level := if s.mode = .selfTest then s.txLevel else s.lineLevel

/-- The line reads recessive: the dominant timer is at 0 (R108). -/
def LineInterface.recessive (l : LineInterface) : LineInterface := { l with was := .high, dominant := 0 }

/-- The line has been recessive since a break that was detected: the break has ended, and break in progress is
cleared unless the own driver still drives (R109).  A break that was never detected is not ended here (log entry 34).
-/
def LineInterface.breakOver (l : LineInterface) : LineInterface :=
  { l with breakSeen := false, breakInProgress := l.breakInProgress && !(l.breakSeen && l.driver == .off) }

/-- The line reads dominant: the idle timer is at 0 (R94). -/
def LineInterface.notIdle (l : LineInterface) : LineInterface := { l with idle := 0, idleSub := 0 }

/-- The line comes to read dominant: a new dominant run begins (R94, R108). -/
def LineInterface.dominantBegins (l : LineInterface) : LineInterface :=
  { l.notIdle with pulled := true, was := .low, dominant := 0 }

/-- The line has been dominant for `t` at least (R108): its falling edge is past. -/
def LineInterface.dominantFor (t : Nat) (l : LineInterface) : LineInterface :=
  { l with was := .low, dominant := max l.dominant t }

/-- Something has stopped pulling the pin: where nothing else pulls it, the line reads recessive. -/
def State.freed (s : State) : State :=
  if s.lineLevel = .high then s.modLine LineInterface.recessive else s

/-- A command from the line shows a level on the pin: where the pin does not read so already, the other
stations are what makes it read so (log entry 2). -/
def State.showLine (level : Level) (s : State) : State :=
  match level with
  | .low => s.modLine (if s.lineLevel = .low then LineInterface.notIdle else LineInterface.dominantBegins)
  | .high => (s.modLine (fun l => { l with pulled := false })).freed

/-- The break driver releases the pin.  The line has read dominant until now (R94, R110).  DESIGN CHOICE (log entry
34): released before its break was detected, it leaves break in progress set. -/
def State.releaseDriver (s : State) : State := (s.modLine (fun l => { l.notIdle with driver := .off })).freed

/-- The receiver enters AWAIT_IDLE and abandons a character in progress; if the idle timer stands at NIDLE
it goes on to READY at once (R97). -/
def State.awaitIdle (s : State) : State :=
  s.modLine (fun l =>
    { l with rx := { Receiver.reset with
        phase := if Config.NIDLE ≤ l.idle then .ready else .awaitIdle } })

/-- The receiver takes a falling edge (R95, R97): in READY it schedules its check, and in AWAIT_IDLE with the
idle timer at NJOIN or more it enters READY and does the same.  A check already pending stays (log entry 19).
-/
def Receiver.edge (idle : Nat) (r : Receiver) : Receiver :=
  match r.phase with
  | .ready => { r with check := if r.check.isNone then some Config.tHALF else r.check }
  | .awaitIdle =>
    if Config.NJOIN ≤ idle then { r with phase := .ready, check := some Config.tHALF } else r
  | .character => r

/-- A falling edge stands on the line, which was recessive until now: the timers are at 0 (R94, R108) and an
earlier break is over (R109). -/
def LineInterface.edgeBegins (l : LineInterface) : LineInterface :=
  { l.breakOver.notIdle with was := .low, dominant := 0 }

/-- A command reports a falling edge on LINE.  Where the station itself has held the line dominant, no new run
begins (log entry 2). -/
def State.edgeShown (s : State) : State :=
  (s.showLine .low).modLine
    (if s.selfPulls && s.line.was == .low then LineInterface.notIdle else LineInterface.edgeBegins)

/-- The receiver takes a falling edge of the pin (R95, R97). -/
def State.edgeTaken (idle : Nat) (s : State) : State :=
  if s.mode = .selfTest then s else s.modRx (Receiver.edge idle)

/-- A falling edge on LINE with the idle timer at `idle` (R94, R95, R97, R108).  A transmitter in its stop slot goes
on to the end of it, and times its next character from this edge (R91, State.startEdgeAge). -/
def State.fallingEdge (idle : Nat) (s : State) : State := s.edgeShown.edgeTaken idle

/-- The receiver has a character judged that is this one, and is to hand it over. -/
def Receiver.hasJudged (raw : RawChar) (r : Receiver) : Bool := r.handing.map Prod.fst == some raw

/-- The line has fallen after the sample of a stop slot that ends now: the time left until the check of that
edge (R93, R95, R96; log entry 14). -/
def State.fellAfterStop (s : State) : Option Nat :=
  if s.lineLevel = .low ∧ s.line.dominant < Config.tHALF then some (Config.tHALF - s.line.dominant) else none

/-- The timers at the end of a recessive stop slot: on a recessive line the idle timer has counted the trailing
slots (R94, R108). -/
def State.stopCounted (raw : RawChar) (s : State) : State :=
  if s.lineLevel = .high then
    s.modLine (fun l =>
      { l with idle := min raw.trailingRecessive Config.NJOIN,
               idleSub := if Config.NJOIN < raw.trailingRecessive then Config.tBIT else 0,
               dominant := 0 })
  else s.modLine LineInterface.notIdle

/-- A recessive stop slot ends: the line reads recessive, but where it has fallen since, or where the station
itself pulls it (R94, R108; log entry 14). -/
def State.stopRecessive (raw : RawChar) (s : State) : State :=
  (if s.fellAfterStop.isSome then s else s.showLine .high).stopCounted raw

/-- A dominant stop slot ends: the line reads dominant, its falling edge is past, and the dominant timer has counted
the trailing slots, or what the station's own driving has run if that is longer (R94, R108; log entry 14). -/
def State.stopDominant (raw : RawChar) (s : State) : State :=
  (s.showLine .low).modLine (fun l =>
    { l with
      was := .low
      dominant :=
        if s.selfPulls then max l.dominant (raw.dominantAfter l.dominant) else raw.dominantAfter l.dominant })

/-- The receiver is done with a character (R96); an edge since its stop slot was taken in READY (R95). -/
def Receiver.characterOver (fell : Option Nat) (r : Receiver) : Receiver :=
  match r.phase with
  | .character => { r with phase := .ready, check := fell, elapsed := 0, slots := [], handing := none }
  | .ready => { r with handing := none }
  | .awaitIdle => { r with handing := none }

/-- A character has been handed over (R96).  Where the receiver had judged this very character, only the
hand-over ends.  Where the outside reports another, the receiver is done with it, and the line stands at the end
of its stop slot (log entry 14). -/
def State.characterHanded (raw : RawChar) (s : State) : State :=
  if s.line.rx.hasJudged raw then s.modRx (fun r => { r with handing := none })
  else if s.mode = .selfTest then s.modRx (Receiver.characterOver none)
  else if raw.stop then (s.stopRecessive raw).modRx (Receiver.characterOver s.fellAfterStop)
  else (s.stopDominant raw).modRx (Receiver.characterOver none)

/-- The conditions at the station for a contention attempt (R103). -/
def State.mayAttempt (s : State) : Bool :=
  s.mode == .run && s.line.tx.isNone && !s.line.breakInProgress && !s.driverPulls

/-- A contention attempt (R103, R135): the queue makes its offer; if it offers an entry, the transmitter takes
its copy and enters SENDING. -/
def State.attempt (s : State) : State :=
  if s.mayAttempt then
    let q := s.refreshedQueue
    match offered s.eligible q with
    | some e =>
      let s := { s with queue := putOnLine e.frame q }
      s.modLine (fun l => { l with tx := some { frame := e.frame.copyFrom s.stationId, char := 0, t := 0 } })
    | none => { s with queue := q }
  else s

/-- An attempt ends without completion: the transmitter releases the line and returns to IDLE, and the entry
is settled (R105, R106, R108, R136). -/
def State.endAttempt (s : State) : State :=
  if s.line.tx.isSome then (s.settleAttempt false).modLine (fun l => { l with tx := none }) else s

/-- An error of frame assembly: the characters held are discarded, position 0, hunt set (R99, R101, R102). -/
def State.discardAssembly (s : State) : State := { s with handler := { held := [], hunt := true } }

/-- The transmitter stands at the end of its frame. -/
def State.sentAll (s : State) : Bool :=
  match s.line.tx with
  | some x => x.done
  | none => false

/-- The transmitter stands at the middle of a slot, where it samples the line (R91). -/
def Sending.samples (x : Sending) : Bool := x.t % Config.tBIT == Config.tHALF

/-- The transmitter of the station stands at a sample. -/
def State.txSamples (s : State) : Bool :=
  match s.line.tx with
  | some x => x.samples
  | none => false

/-- The transmitter is in the last character of its frame. -/
def State.sendsLastCharacter (s : State) : Bool :=
  match s.line.tx with
  | some x => decide (3 ≤ x.char)
  | none => false

/-- The last character of a frame that is abandoned is not taken (R111): the frame did not complete, it stays
pending and is sent again, so the handler makes no frame of it (log entry 32). -/
def State.dropLastCharacter (s : State) : State :=
  if s.sendsLastCharacter then (s.modRx (fun r => { r with handing := none })).discardAssembly else s

/-- The break driver starts (R110, R111): the frame in flight is abandoned, LINE is pulled low for at least
tBDRIVE, and break in progress is set from that moment. -/
def State.startBreakDriver (s : State) : State :=
  s.dropLastCharacter.endAttempt.modLine (fun l => { l with driver := .minimum 0, breakInProgress := true })

/-- The released level of STOP/ is delivered (R110): past tBDRIVE the driver releases the pin. -/
def State.stopReleased (s : State) : State := if s.line.driver = .held then s.releaseDriver else s

/-- STOP/ is delivered as asserted (R173): the break driver starts and LINE_STOP is set, in one step.  DESIGN CHOICE
(log entry 33): R173 gives no order between the driver's abandonment of the frame in flight and what the setting
withdraws and posts; the frame is abandoned first. -/
def State.stopAssertedNow (s : State) : State := s.startBreakDriver.setCause .lineStop

end Sys2Proof.Machine
end

