-- ==== Sys2Proof/Machine/Frames.lean ====
section
/-! DEFINITION. The frame handler (06): the tests on a complete peer frame, its dispatch to the blocks that
own its effect, the dispatch of the station's own completed frames, and the assembly of characters (R98). -/

namespace Sys2Proof.Machine

/-- The fate of a complete peer frame (R117). -/
inductive Judgement where
  | discarded
  | duplicate
  | accepted
deriving DecidableEq, Repr

def acceptIf (b : Bool) : Judgement := if b then .accepted else .discarded

/-- The target in DATA is ID or 255 (R119). -/
def targets (id : StationNumber) (data : Byte) : Bool :=
  data.toNat == id.val || data.toNat == Config.IDALL

/-- Tests 3 to 6 of R117 on a frame that is no duplicate (R119 to R121). -/
def judgeKind (mode : Mode) (c : StationConfig) (f : Frame) : Judgement :=
  match f.post.kind with
  | .fi => acceptIf (f.post.loc.group == c.group)
  | .tr => acceptIf (f.post.loc.group == c.group)
  | .re => acceptIf (f.post.loc.group == c.group)
  | .rb => acceptIf (f.post.loc.group == c.group)
  | .rs => .accepted
  | .hd => acceptIf (targets c.id f.post.data)
  | .rl => acceptIf (targets c.id f.post.data)
  | .sq => acceptIf (mode == .run && targets c.id f.post.data)
  | .st => .discarded
  | .unknown _ => .discarded

/-- The tests on a peer frame whose station has a configuration: the duplicate test first, on every kind
(R117, R122). -/
def judgeConfigured (mode : Mode) (config : Option StationConfig) (f : Frame) : Judgement :=
  match config with
  | some c => if f.sender = c.id then .duplicate else judgeKind mode c f
  | none => .discarded

/-- The judgement of a complete peer frame (R117, R118). -/
def State.judge (s : State) (f : Frame) : Judgement :=
  match s.mode with
  | .straps => .discarded
  | .selfTest => .discarded
  | .strapFault => acceptIf (f.post.kind == .rs)
  | .listen => judgeConfigured .listen s.config f
  | .run => judgeConfigured .run s.config f
  | .quiet => judgeConfigured .quiet s.config f

/-- Station control acts on a duplicate report by its mode (R123). -/
def State.duplicateReport (s : State) : State :=
  match s.mode with
  | .run => s.enterQuiet
  | .listen => { s with duplicateNote := true }
  | .quiet => s
  | .straps => s
  | .selfTest => s
  | .strapFault => s

/-- What one district does with a flip intent of the group (R73 to R75, R87): the district that an own FI
names enters SWITCHING if it is CONTEND; every other CONTEND district hears the intent; a COOLING one may be
pardoned. -/
def State.districtHearsIntent (own : Option District) (k : District) (s : State) : State :=
  if own = some k ∧ (s.record k).state = .contend then s.enterSwitching k
  else if own = some k then s.pardonOnIntent k
  else (s.hearIntentInContend k).pardonOnIntent k

/-- A flip intent of the group, heard or completed: the ramp list unit first, then the districts (R126). -/
def State.intentOfGroup (own : Option District) (s : State) : State :=
  s.heardIntent.eachDistrict (State.districtHearsIntent own)

/-- The fault nibble of a TR is INRUSH (R124, R152). -/
def tellsInrush (data : Byte) : Bool := data.toNat / 16 == FaultKind.inrush.code

/-- The effect of an HD or RL on the district named, or on each of the four (R124). -/
def State.addressed (loc : Where) (f : District → State → State) (s : State) : State :=
  if loc.all then s.eachDistrict f else f loc.district s

/-- LINE_STOP is cleared by an RS unless a break is in progress (R174). -/
def State.resumeFrame (s : State) : State :=
  if s.line.breakInProgress = false ∧ s.halt.lineStop = true then s.clearCause .lineStop else s

/-- The indication unit's snapshot of four ST frames, for districts 0 to 3 (R199). -/
def State.statusPosts (s : State) : List Post := allDistricts.map s.stPost

/-- The dispatch of an accepted peer frame by its kind (R124). -/
def State.dispatchPeer (f : Frame) (s : State) : State :=
  match f.post.kind with
  | .fi => s.intentOfGroup none
  | .tr =>
    let removed := s.removePeerEntry f.sender f.post.loc.district
    if tellsInrush f.post.data then removed.startHoldoff else removed
  | .re => s.removePeerEntry f.sender f.post.loc.district
  | .rb =>
    s.modRamp (fun r =>
      { r with floor := floorAfter f.post.data r.floor,
               list := recordPeerRamp f.sender f.post.loc.district r.list })
  | .rs => s.resumeFrame
  | .hd => s.addressed f.post.loc (if f.post.loc.set then State.holdSet else State.holdClear)
  | .rl => s.addressed f.post.loc State.release
  | .sq => s.statusPosts.foldl (fun s p => s.post p) s
  | .st => s
  | .unknown _ => s

/-- A frame is complete: its last character is handed over, position 0, hunt clear (R98). -/
def State.frameComplete (data : Byte) (s : State) : State :=
  { s.characterHanded (RawChar.ofClean data false) with handler := { held := [], hunt := false } }

/-- The frame handler assembles characters in every mode but STRAPS and SELFTEST (R112, R118). -/
def State.assembles (s : State) : Bool := s.mode != .straps && s.mode != .selfTest

/-- A complete peer frame: judged, then discarded, reported as a duplicate or dispatched, in one step; what
the ramp list unit does after the districts' steps follows (R117, R122, R124).  Where nothing is assembled,
no frame completes (R118).  DESIGN CHOICE (log entry 35): the same while the transmitter is SENDING, where no peer
frame can complete (R112, R123). -/
def State.peerFrame (f : Frame) (s : State) : State :=
  if s.assembles then
    let done := s.frameComplete f.post.data
    match s.judge f with
    | .discarded => done
    | .duplicate => State.followUp s done.duplicateReport
    | .accepted => State.followUp s (done.dispatchPeer f)
  else s

/-- The re-check at the completion of an own RB (R158, R159): the district named starts its ramp, or an RE is
posted for it. -/
def State.recheck (k : District) (s : State) : State :=
  let s := s.modRamp (fun r => { r with rbDistrict := if r.rbDistrict = some k then none else r.rbDistrict })
  if (s.record k).state = .queued ∧ s.roomForRamp = true then s.startRamp k else s.postRe k

/-- The dispatch of an own completion by its kind (R125). -/
def State.dispatchOwn (f : Frame) (s : State) : State :=
  match f.post.kind with
  | .fi => s.intentOfGroup (some f.post.loc.district)
  | .rb => s.recheck f.post.loc.district
  | .tr => if tellsInrush f.post.data then s.startHoldoff else s
  | .re => s
  | .rs => s
  | .st => s
  | .hd => s
  | .rl => s
  | .sq => s
  | .unknown _ => s

/-- The frame in flight completes (R107, R138): the transmitter returns to IDLE, the entry is settled, and
only then is the copy dispatched as own.  Completed before the transmitter's own time has run, the line is
brought to the end of the frame (log entry 2).  The unit's choice is made again after the completion of an own RB,
after that of any own frame while the RB district is none, and after a district entered or left QUEUED
(R155, R157). -/
def State.ownCompletion (f : Frame) (s : State) : State :=
  let idle := (s.settleAttempt true).modLine (fun l => { l with tx := none })
  let freed := if s.sentAll then idle else idle.showLine .high
  let done := (freed.frameComplete f.post.data).dispatchOwn f
  if f.post.kind = .rb ∨ s.ramp.rbDistrict = none then done.chooseAgain.directStart
  else State.followUp s done

/-- The frame in flight completes, if its kind is one of those a command is about.  The self-test frame is
never dispatched (R185). -/
def State.completeInFlight (about : Kind → Bool) (s : State) : State :=
  match s.line.tx with
  | some x => if s.mode = .run ∧ about x.frame.post.kind = true then s.ownCompletion x.frame else s
  | none => s

/-- Whether a frame just received is the one in flight, which makes it the station's own (R98, R107). -/
def State.isOwnFrame (f : Frame) (s : State) : Bool :=
  match s.line.tx with
  | some x => s.mode == .run && x.frame == f
  | none => false

/-- The fourth character is taken: the frame is complete and goes to acceptance, own or peer (R98; log entry 35 for a
peer frame while the transmitter is SENDING). -/
def State.takeData (head station loc data : Byte) (s : State) : State :=
  let f := Frame.ofChars head station loc data
  if s.isOwnFrame f then s.ownCompletion f else s.peerFrame f

/-- A clean character taken by its mark, the hunt flag and the position (R98, R100). -/
def State.takeClean (data : Byte) (mark : Bool) (s : State) : State :=
  let handed := s.characterHanded (RawChar.ofClean data mark)
  if mark then { handed with handler := { held := [data], hunt := false } }
  else if s.handler.hunt then handed
  else
    match s.handler.held with
    | [head] => { handed with handler := { held := [head, data], hunt := false } }
    | [head, station] => { handed with handler := { held := [head, station, data], hunt := false } }
    | [head, station, loc] => s.takeData head station loc data
    | _ => handed

/-- The self-test's comparison of the next character handed over with the one sent (R186).  A mismatch is kept
in selfTest until END_OF_SELFTEST sets the note (DESIGN CHOICE, log entry 30). -/
def State.compareSelfTest (raw : RawChar) (frame : Frame) (s : State) : State :=
  if s.selfTest.handed < 4 then
    let sent := frame.rawChar s.selfTest.handed
    let same := raw.status == .clean && raw.data == sent.data && raw.mark == sent.mark
    { s with selfTest := { s.selfTest with handed := s.selfTest.handed + 1,
                                           matched := s.selfTest.matched && same } }
  else s

/-- The self-test frame (R185): an ST with the station's ID, district 0, DATA 255 − ID. -/
def StationConfig.selfTestFrame (c : StationConfig) : Frame :=
  { post := { kind := .st, prio := 0,
              loc := { group := c.group, district := 0, all := false, set := false },
              data := BitVec.ofNat 8 (255 - c.id.val) },
    sender := c.id }

/-- A character looped back in SELFTEST is handed to station control (R112, R186). -/
def State.selfTestHanded (raw : RawChar) (s : State) : State :=
  let handed := s.characterHanded raw
  match s.config with
  | some c => handed.compareSelfTest raw c.selfTestFrame
  | none => handed

/-- A character the receiver hands over, routed by the mode (R112) and taken by its status (R98 to R100). -/
def State.characterArrives (raw : RawChar) (s : State) : State :=
  match s.mode with
  | .straps => s.characterHanded raw
  | .selfTest => s.selfTestHanded raw
  | .listen | .run | .quiet | .strapFault =>
    if raw.status = .clean then s.takeClean raw.data raw.mark
    else (s.characterHanded raw).discardAssembly

end Sys2Proof.Machine
end

