-- ==== Sys2Proof/Machine/StartUp.lean ====
section
/-! DEFINITION. Start-up (10): RESET, STRAP_READING with the strap decoding, SELFTEST_CHARACTER,
END_OF_SELFTEST and END_OF_LISTEN. -/

namespace Sys2Proof.Machine

/-- The answer of every meaning: the next state. -/
abbrev Result := Host.Outcome State Fault Refusal

/-- Reset (R180): every block takes its reset values.  The levels that the outside holds on the input pins
stay, and each qualifier begins on the raw level present (01 1.6); the commands still waiting and the model's
own counter stay. -/
def State.afterReset (s : State) : State :=
  { State.reset with
    strPins := s.strPins, isenPins := s.isenPins, vsenPin := s.vsenPin,
    stopQ := Qualifier.reset s.stopQ.raw, resumeQ := Qualifier.reset s.resumeQ.raw,
    releaseQ := Qualifier.reset s.releaseQ.raw,
    cnfQ := s.cnfQ.map (fun q => Qualifier.reset q.raw),
    line := LineInterface.reset s.line.pulled, tie := s.tie, pending := s.pending }

/-- RESET (R180). -/
def execReset (s : State) : Result := .next s.afterReset

/-- The band of a code, 0 to 15 (R181). -/
def bandOfCode (c : Code) : Nat := c.toNat / Config.BANDW

/-- A reading is clean when its remainder lies from GLOW to GHIGH (R181). -/
def isCleanReading (c : Code) : Bool :=
  decide (Config.GLOW ≤ c.toNat % Config.BANDW) && decide (c.toNat % Config.BANDW ≤ Config.GHIGH)

/-- The band of a good strap: four clean readings of one band (R181). -/
def bandOfReadings (codes : List Code) : Option Nat :=
  match codes with
  | [a, b, c, d] =>
    if [a, b, c, d].all isCleanReading && [b, c, d].all (fun x => bandOfCode x == bandOfCode a) then
      some (bandOfCode a)
    else none
  | _ => none

/-- The codes handed over for a strap. -/
def codesOf (readings : List Reading) (strap : Fin 6) : List Code :=
  (readings.filter (fun r => r.strap == strap)).map (fun r => r.code)

/-- The configuration that the six bands give, unless ID would be 255 (R182). -/
def configOfBands (b0 b1 b2 b3 b4 b5 : Nat) : Option StationConfig :=
  if 16 * b0 + b1 = Config.IDALL then none
  else some { id := Fin.ofNat 256 (16 * b0 + b1), group := Fin.ofNat 16 b2, budget := b3 + 1,
              trip := Fin.ofNat 16 b4, rev := Fin.ofNat 16 b5 }

/-- The strap decoding: refused when a strap is not good, or when ID would be 255 (R181, R182). -/
def decodeStraps (readings : List Reading) : Option StationConfig :=
  match bandOfReadings (codesOf readings 0), bandOfReadings (codesOf readings 1),
        bandOfReadings (codesOf readings 2), bandOfReadings (codesOf readings 3),
        bandOfReadings (codesOf readings 4), bandOfReadings (codesOf readings 5) with
  | some b0, some b1, some b2, some b3, some b4, some b5 => configOfBands b0 b1 b2 b3 b4 b5
  | _, _, _, _, _, _ => none

/-- A district at the strap decoding (R39, R70): the reversing flag; POLk driven low if it is clear, and at
the debounced CNFk level if it is set and the qualifier has settled already. -/
def State.configureDistrict (c : StationConfig) (k : District) (s : State) : State :=
  let s := s.modRecord k (fun d => { d with reversing := c.reverses k })
  if c.reverses k then
    match (s.cnfQ.get k).settled with
    | some level => s.modRelay k (fun r => { r with cnf := some level, pol := some level })
    | none => s
  else s.modRelay k (fun r => { r with pol := some .low })

/-- The entry to SELFTEST (R185): the self-test frame begins in the loopback at once, and the receiver, its
input switched to the loopback, is READY and takes the first edge. -/
def State.enterSelfTest (c : StationConfig) (s : State) : State :=
  { s with
    mode := .selfTest,
    selfTest := { handed := 0, matched := true, left := some Config.tSELF },
    line := { s.line with
      tx := some { frame := c.selfTestFrame, char := 0, t := 0 },
      rx := { Receiver.reset with phase := .ready, check := some Config.tHALF } } }

/-- An accepted configuration is handed on and the station enters SELFTEST (R183). -/
def State.takeConfig (c : StationConfig) (s : State) : State :=
  ({ s with config := some c }.eachDistrict (State.configureDistrict c)).enterSelfTest c

/-- A refused configuration: STRAP_FAULT, every POL driven low, the ALERT latch set (R184). -/
def State.enterStrapFault (s : State) : State :=
  { s with mode := .strapFault, alert := true,
           relays := s.relays.map (fun r => { r with pol := some .low }) }

/-- The decoding after the 24th reading, with the scan begun (R5, R183). -/
def State.decodeNow (s : State) : State :=
  let scanning := { s with converter := .scan 0 0 }
  match decodeStraps s.readings with
  | some c => scanning.takeConfig c
  | none => scanning.enterStrapFault

/-- A reading recorded under its strap and round (R4, R181). -/
def recordReading (r : Reading) (rs : List Reading) : List Reading :=
  rs.filter (fun x => !(x.strap == r.strap && x.round == r.round)) ++ [r]

/-- STRAP_READING (R4, R181, R183): the code is recorded, the converter goes on to the next conversion, and
the 24th reading is followed by the decoding in the same step.  After STRAPS the strap inputs are not
converted. -/
def State.strapReading (strap : Fin 6) (round : Fin 4) (code : Code) (s : State) : State :=
  if s.mode = .straps then
    let s := { s with strPins := s.strPins.set strap.val code,
                      readings := recordReading { strap := strap, round := round, code := code } s.readings,
                      converter := .straps (6 * round.val + strap.val + 1) 0 }
    if Config.NSTRAP ≤ s.readings.length then s.decodeNow else s
  else s

def execStrapReading (strap : Fin 6) (round : Fin 4) (code : Code) (s : State) : Result :=
  .next (s.strapReading strap round code)

/-- SELFTEST_CHARACTER (R186): the looped-back character is compared with the one sent. -/
def execSelftestCharacter (raw : RawChar) (s : State) : Result :=
  .next (if s.mode = .selfTest then s.selfTestHanded raw else s)

/-- The self-test passes when four characters were handed over by tSELF and all matched (R186). -/
def SelfTest.passed (t : SelfTest) : Bool := t.handed == 4 && t.matched

/-- END_OF_SELFTEST (R186, R187): the note if the test failed, the receiver back to the pin in AWAIT_IDLE, the
frame handler at position 0 in hunt, and LISTEN for tLISTEN.  DESIGN CHOICE (log entry 30): R186 gives no moment
to the setting of the note after a mismatch; it is set here. -/
def State.endSelfTest (s : State) : State :=
  { s.awaitIdle.discardAssembly with
    selfTestNote := s.selfTestNote || !s.selfTest.passed,
    selfTest := { s.selfTest with left := none },
    line := { s.awaitIdle.line with tx := none },
    mode := .listen, listen := some Config.tLISTEN }

def execEndOfSelftest (s : State) : Result :=
  .next (if s.mode = .selfTest then s.endSelfTest else s)

/-- END_OF_LISTEN (R188, R189): RUN if both notes are clear, QUIET if one is set; START cleared; the halt ends
if the set is now empty.  At the entry to RUN the unit makes its choice (R155). -/
def State.endListen (s : State) : State :=
  let s := { s with listen := none }
  if s.selfTestNote || s.duplicateNote then State.followUp s s.enterQuiet
  else ({ s with mode := .run }.clearCause .start).chooseAgain

def execEndOfListen (s : State) : Result :=
  .next (if s.mode = .listen then s.endListen else s)

end Sys2Proof.Machine
end

