-- ==== Sys2Proof/Machine/Sensing.lean ====
section
/-! DEFINITION. Sensing (01, 02): CURRENT_SAMPLE, SUPPLY_SAMPLE and PROBE_PULSE_START. -/

namespace Sys2Proof.Machine

/-- The scan has handed on its conversion at `pos` (0 to 4), so that much of the scan has run (R5). -/
def Converter.handedOn (c : Converter) (pos : Nat) : Converter :=
  match c with
  | .straps i t => .straps i t
  | .scan _ _ => .scan (Config.tCONV * (pos + 1)) (pos + 1)

/-- The trip engine treats a sample of a LIVE district (R19, R22 to R27); EARLY only in a reversing district
whose watch is none or yield (R26). -/
def State.sampleLive (k : District) (l : Nat) (c : Code) (s : State) : State :=
  let d := s.record k
  let r := (s.engine k).sample l 0 .overload (d.reversing && d.watch != .flip) c
  let s := s.setEngine k r.1
  match r.2 with
  | some det => s.detectLive k det
  | none => s

/-- The trip engine treats a sample of a RAMPING district with the allowance of its k (R25, R29). -/
def State.sampleRamping (k : District) (l : Nat) (c : Code) (s : State) : State :=
  let r := (s.engine k).sample l (rampAllowance l (s.record k).k) .inrush false c
  let s := s.setEngine k r.1
  match r.2 with
  | some det => s.detectRamping k det
  | none => s

/-- The trip engine treats a sample of a probe in progress (R32 to R34). -/
def State.sampleProbe (k : District) (l : Nat) (c : Code) (s : State) : State :=
  match (s.engine k).probe with
  | none => s
  | some p =>
    match p.sample l c with
    | .goesOn p' => s.setEngine k { s.engine k with probe := some p' }
    | .ends v => s.probeVerdict k v

/-- A sample by the district's state and gate at the end of its conversion (R6, R19, R20). -/
def State.treatSample (k : District) (l : Nat) (c : Code) (s : State) : State :=
  match (s.record k).state with
  | .live => s.sampleLive k l c
  | .ramping => s.sampleRamping k l c
  | .probing => if (s.record k).phase = .pulse then s.sampleProbe k l c else s
  | .halted => s
  | .dark => s
  | .cooling => s
  | .queued => s
  | .contend => s
  | .switching => s
  | .locked => s

/-- CURRENT_SAMPLE (R6, R19): the converter hands the code to the engine of district k.  In STRAPS the current
inputs are not converted; without a configuration the engines hold no L and discard (R16). -/
def State.currentSample (k : District) (code : Code) (s : State) : State :=
  if s.mode = .straps then s
  else
    let taken := { s with isenPins := s.isenPins.set k code, converter := s.converter.handedOn k.val }
    match s.config with
    | some c => State.followUp s (taken.treatSample k c.level code)
    | none => taken

def execCurrentSample (k : District) (code : Code) (s : State) : Result :=
  .next (s.currentSample k code)

/-- The classes of a supply sample (R3). -/
inductive SupplyClass where
  | low
  | band
  | high
deriving DecidableEq, Repr

def supplyClass (v : Code) : SupplyClass :=
  if v.toNat < Config.VLOW then .low else if v.toNat < Config.VHIGH then .band else .high

/-- The run counters after a sample (R8). -/
def SupplyMonitor.counted (m : SupplyMonitor) (v : Code) : SupplyMonitor :=
  match supplyClass v with
  | .low => { m with lowRun := min (m.lowRun + 1) Config.NLOW, highRun := 0 }
  | .band => { m with lowRun := 0, highRun := 0 }
  | .high => { m with lowRun := 0, highRun := min (m.highRun + 1) Config.NHIGH }

/-- SUPPLY_SAMPLE (R7 to R10): the counters, and the flag with the SUPPLY cause at the fourth low sample and
at the fortieth high one.  In STRAPS the supply input is not converted. -/
def State.supplySample (code : Code) (s : State) : State :=
  if s.mode = .straps then s
  else
    let m := s.supply.counted code
    let taken := { s with vsenPin := code, converter := s.converter.handedOn 4, supply := m }
    if m.lowRun = Config.NLOW ∧ m.present = true then
      State.followUp s ({ taken with supply := { m with present := false } }.setCause .supply)
    else if m.highRun = Config.NHIGH ∧ m.present = false then
      State.followUp s ({ taken with supply := { m with present := true } }.clearCause .supply)
    else taken

def execSupplySample (code : Code) (s : State) : Result := .next (s.supplySample code)

/-- The converter stands at the start of a scan. -/
def Converter.scanStart (c : Converter) : Converter :=
  match c with
  | .straps i t => .straps i t
  | .scan _ _ => .scan 0 0

/-- PROBE_PULSE_START (R32, R49): at a start of scan the WAIT of a PROBING district ends, the gate goes on and
a fresh probe begins. -/
def State.pulseStart (k : District) (s : State) : State :=
  if (s.record k).state = .probing ∧ (s.record k).phase = .wait then
    ({ s with converter := s.converter.scanStart }.setEngine k Engine.probing).modRecord k
      (fun d => { d with phase := .pulse })
  else s

def execProbePulseStart (k : District) (s : State) : Result := .next (s.pulseStart k)

end Sys2Proof.Machine
end

