-- ==== Sys2Proof/Machine/Inputs.lean ====
section
/-! DEFINITION. The input qualifier (01 1.6) and what its deliveries do: RAW_INPUT_CHANGE, DEBOUNCE_EXPIRY
and BREAK_DRIVE_MINIMUM_END. -/

namespace Sys2Proof.Machine

/-- A raw change (R11, R12): an unsettled qualifier's timer restarts; a settled one's stops when the raw level
is back at the debounced level, and starts from zero when it is away from it. -/
def Qualifier.rawChange (level : Level) (q : Qualifier) : Qualifier :=
  if level = q.raw then q
  else { q with raw := level, held := if q.settled = some level then none else some 0 }

/-- RAW_INPUT_CHANGE (R11). -/
def execRawInputChange (pin : InputPin) (level : Level) (s : State) : Result :=
  .next (s.setQualifier pin ((s.qualifier pin).rawChange level))

/-- The hold timer's expiry: the debounced level takes the raw level, the timer stops (R11, R12). -/
def Qualifier.expired (q : Qualifier) : Qualifier := { q with settled := some q.raw, held := none }

/-- A RESUME/ assertion event (R175). -/
def State.resumePressed (s : State) : State :=
  if s.line.breakInProgress = false ∧ s.halt.lineStop = true then
    let s' := s.clearCause .lineStop
    s'.post s'.rsPost
  else s

/-- The latch is cleared by RELEASE/ in RUN with no district LOCKED, and refused otherwise (R195). -/
def State.clearAlert (s : State) : State :=
  if s.mode = .run ∧ s.anyDistrict .locked = false then { s with alert := false } else s

/-- A RELEASE/ assertion event: the four districts are released, then the latch is asked for (R60, R195).  The
event is delivered in LISTEN, RUN, QUIET and STRAP_FAULT. -/
def State.releasePressed (s : State) : State :=
  match s.mode with
  | .straps => s
  | .selfTest => s
  | .listen => (s.eachDistrict State.release).clearAlert
  | .run => (s.eachDistrict State.release).clearAlert
  | .quiet => (s.eachDistrict State.release).clearAlert
  | .strapFault => (s.eachDistrict State.release).clearAlert

/-- A debounced level delivered (R13 to R15).  `before` is the debounced level it takes the place of; RESUME/
and RELEASE/ deliver an event at a change from high to low alone. -/
def State.deliver (pin : InputPin) (before : Option Level) (level : Level) (s : State) : State :=
  match pin with
  | .stop => if level = .low then s.stopAssertedNow else s.stopReleased
  | .resume => if before = some .high ∧ level = .low then s.resumePressed else s
  | .release => if before = some .high ∧ level = .low then s.releasePressed else s
  | .cnf k => s.cnfDelivered k level

/-- DEBOUNCE_EXPIRY (R11, R12): with the hold timer running, the level settles or changes and is delivered. -/
def State.debounceExpiry (pin : InputPin) (s : State) : State :=
  let q := s.qualifier pin
  if q.held.isSome then
    State.followUp s ((s.setQualifier pin q.expired).deliver pin q.settled q.raw)
  else s

def execDebounceExpiry (pin : InputPin) (s : State) : Result := .next (s.debounceExpiry pin)

/-- BREAK_DRIVE_MINIMUM_END (R110): tBDRIVE has run; the driver releases the pin unless STOP/ is asserted.  Given
before the break was detected it leaves break in progress set (DESIGN CHOICE, log entry 34). -/
def State.driveMinimumEnd (s : State) : State :=
  match s.line.driver with
  | .minimum _ =>
    if s.stopAsserted then s.modLine (fun l => { l with driver := .held }) else s.releaseDriver
  | .held => s
  | .off => s

def execBreakDriveMinimumEnd (s : State) : Result := .next s.driveMinimumEnd

end Sys2Proof.Machine
end

