-- ==== Sys2Proof/Machine/DistrictTimers.lean ====
section
/-! DEFINITION. The ends of a district's timers (03, 04): COOLING_EXPIRY, SETTLE_WINDOW_EXPIRY,
RAMP_K_ADVANCE, RAMP_COMPLETION, CONTEND_TIMEOUT, CONFIRM_TIMEOUT, FLIP_WATCH_END, YIELD_WATCH_END,
CHATTER_WINDOW_EXPIRY and PARDON_WINDOW_END.  Each command is the moment its timer reaches its end; where
that timer is not running in district k the event cannot arise and nothing changes (log entries 2 and 3). -/

namespace Sys2Proof.Machine

/-- COOLING_EXPIRY (R48): cooling remaining is 0 and the district enters PROBING. -/
def State.coolingExpires (k : District) (s : State) : State :=
  if (s.record k).state = .cooling then
    (s.modRecord k (fun d => { d with cooling := 0 })).enterProbing k
  else s

def execCoolingExpiry (k : District) (s : State) : Result := .next (s.coolingExpires k)

/-- SETTLE_WINDOW_EXPIRY (R46): n is 0 and the window is stopped; last fault is kept. -/
def State.settleExpires (k : District) (s : State) : State :=
  if (s.record k).state = .live ∧ (s.record k).settle.isSome = true then
    s.modRecord k (fun d => { d with n := 0, settle := none })
  else s

def execSettleWindowExpiry (k : District) (s : State) : Result := .next (s.settleExpires k)

/-- RAMP_COMPLETION (R54): k is 64; and in QUIET the next direct start is tested (R161). -/
def State.rampCompletes (k : District) (s : State) : State :=
  if (s.record k).state = .ramping then State.followUp s (s.completeRamp k) else s

def execRampCompletion (k : District) (s : State) : Result := .next (s.rampCompletes k)

/-- RAMP_K_ADVANCE (R29, R54): k advances by 1.  The advance that brings k to 64 is the completion of the ramp
(log entry 13). -/
def State.rampAdvances (k : District) (s : State) : State :=
  if (s.record k).state = .ramping then
    if (s.record k).k + 1 < Config.kEND then
      s.modRecord k (fun d => { d with k := d.k + 1, rampSub := 0 })
    else s.rampCompletes k
  else s

def execRampKAdvance (k : District) (s : State) : Result := .next (s.rampAdvances k)

/-- CONTEND_TIMEOUT (R76): the FI is withdrawn and the district enters SWITCHING. -/
def State.contendRunsOut (k : District) (s : State) : State :=
  if (s.record k).state = .contend then s.enterSwitching k else s

def execContendTimeout (k : District) (s : State) : Result := .next (s.contendRunsOut k)

/-- CONFIRM_TIMEOUT (R81, R168). -/
def execConfirmTimeout (k : District) (s : State) : Result := .next (s.confirmRunsOut k)

/-- FLIP_WATCH_END (R82): the watch kind becomes none. -/
def State.flipWatchEnds (k : District) (s : State) : State :=
  if (s.record k).state = .live ∧ (s.record k).watch = .flip then
    s.modRecord k (fun d => { d with watch := .none, watchLeft := 0 })
  else s

def execFlipWatchEnd (k : District) (s : State) : Result := .next (s.flipWatchEnds k)

/-- YIELD_WATCH_END (R82, R83): the watch kind becomes none and yielded is cleared. -/
def State.yieldWatchEnds (k : District) (s : State) : State :=
  if (s.record k).state = .live ∧ (s.record k).watch = .yield then
    s.modRecord k (fun d => { d with watch := .none, watchLeft := 0, yielded := false })
  else s

def execYieldWatchEnd (k : District) (s : State) : Result := .next (s.yieldWatchEnds k)

/-- CHATTER_WINDOW_EXPIRY (R79): the flip count returns to 0 and the window stops, in every state. -/
def State.chatterExpires (k : District) (s : State) : State :=
  if (s.relay k).chatter.isSome then s.modRelay k Relay.chatterOver else s

def execChatterWindowExpiry (k : District) (s : State) : Result := .next (s.chatterExpires k)

/-- PARDON_WINDOW_END (R87, R88): more than tPARDON of the cooling has run, and the window after the trip is
closed. -/
def State.pardonWindowEnds (k : District) (s : State) : State :=
  s.modRecord k (fun d => { d with pardonWindow := false })

def execPardonWindowEnd (k : District) (s : State) : Result := .next (s.pardonWindowEnds k)

end Sys2Proof.Machine
end

