-- ==== Sys2Proof/Machine/UnitTimers.lean ====
section
/-! DEFINITION. The millisecond clock, the lives and timers of the ramp list unit (08), and the lamp phase (11):
MILLISECOND_TICK, PEER_ENTRY_EXPIRY, FLOOR_EXPIRY, HOLDOFF_END and LAMP_PHASE_ADVANCE. -/

namespace Sys2Proof.Machine

/-- MILLISECOND_TICK (R142). -/
def State.msTick (s : State) : State :=
  { s with ramp := s.ramp.tick, districts := s.districts.map DistrictRecord.tick, msLeft := Config.ms }

def execMillisecondTick (s : State) : Result := .next s.msTick

/-- PEER_ENTRY_EXPIRY (R148): the peer entry of the key is removed; in QUIET the direct start is tested. -/
def execPeerEntryExpiry (station : StationNumber) (k : District) (s : State) : Result :=
  .next (s.removePeerEntry station k).directStart

/-- FLOOR_EXPIRY (R151): F becomes absent; in QUIET the direct start is tested. -/
def execFloorExpiry (s : State) : Result :=
  .next (s.modRamp (fun r => { r with floor := none })).directStart

/-- HOLDOFF_END (R152): the hold-off becomes idle; in QUIET the direct start is tested. -/
def execHoldoffEnd (s : State) : Result :=
  .next (s.modRamp (fun r => { r with holdoff := none })).directStart

/-- LAMP_PHASE_ADVANCE (R197): the phase goes up by 1 and returns from 15 to 0. -/
def State.lampAdvance (s : State) : State :=
  { s with lampPhase := (s.lampPhase + 1) % Config.NPHASE, lampLeft := Config.tLAMP }

def execLampPhaseAdvance (s : State) : Result := .next s.lampAdvance

end Sys2Proof.Machine
end

