-- ==== Sys2Proof/Machine/LineEvents.lean ====
section
/-! DEFINITION. What happens on the peer line (05): CHARACTER_ERROR, SHORT_ERROR, CLEAN_CHARACTER, IDLE_GAP,
IDLE_BOUNDARY_ATTEMPT, JOIN, ARBITRATION_LOSS, DRIVER_FAULT, BREAK_DETECTED, BREAK_END, LINE_FALLING_EDGE and
START_RECHECK. -/

namespace Sys2Proof.Machine

/-- CHARACTER_ERROR (R96, R99): a character of status PARITY or FRAMING. -/
def execCharacterError (raw : RawChar) (s : State) : Result := .next (s.characterArrives raw)

/-- SHORT_ERROR (R100): a clean mark-1 character; at position 1 to 3 what is held is discarded and it begins a
new frame.  At position 0 or in hunt it is the character of R98 (DESIGN CHOICE, log entry 20). -/
def execShortError (head : Byte) (s : State) : Result :=
  .next (s.characterArrives (RawChar.ofClean head true))

/-- CLEAN_CHARACTER (R98): a clean character, taken by its mark, the hunt flag and the position. -/
def execCleanCharacter (data : Byte) (mark : Bool) (s : State) : Result :=
  .next (s.characterArrives (RawChar.ofClean data mark))

/-- The idle timer stands at NIDLE, an earlier break is over (R109), and the receiver leaves AWAIT_IDLE (R94,
R97). -/
def LineInterface.idleNow (l : LineInterface) : LineInterface :=
  { l.breakOver with
    idle := Config.NIDLE, idleSub := 0,
    rx := { l.rx with phase := if l.rx.phase = .awaitIdle then .ready else l.rx.phase } }

/-- The GAP error of R101: at position 1 to 3 the frame held is discarded and hunt is set. -/
def State.gapError (s : State) : State := if s.handler.held = [] then s else s.discardAssembly

/-- IDLE_GAP (R94, R97, R101, R103): the receiver leaves AWAIT_IDLE first, a frame held is a GAP error, and the
transmitter makes its self-start attempt.  On a line that the station itself pulls no idle gap can arise (log
entry 3). -/
def State.idleGap (s : State) : State :=
  if s.selfPulls then s
  else (((s.showLine .high).modLine LineInterface.idleNow).gapError).attempt

def execIdleGap (s : State) : Result := .next s.idleGap

/-- IDLE_BOUNDARY_ATTEMPT (R103): an attempt at a tBIT boundary while the idle timer stands at NIDLE. -/
def State.idleBoundary (s : State) : State :=
  let s := s.modLine (fun l => { l with bitLeft := Config.tBIT })
  if s.line.idle = Config.NIDLE then s.attempt else s

def execIdleBoundaryAttempt (s : State) : Result := .next s.idleBoundary

/-- JOIN (R103): at another station's falling edge with the idle timer at NJOIN or more, position 0 and hunt
clear, an attempt is made; the edge acts as every falling edge does (R94, R95, R97). -/
def State.joinEdge (idle : Nat) (s : State) : State :=
  let shown := s.edgeShown
  let attempted :=
    if Config.NJOIN ≤ idle ∧ s.handler.held = [] ∧ s.handler.hunt = false then shown.attempt else shown
  attempted.edgeTaken idle

def execJoin (idle : Fin 12) (s : State) : Result := .next (s.joinEdge idle.val)

/-- ARBITRATION_LOSS (R105, R136): the transmitter releases the line, which reads dominant, and returns to
IDLE; the entry is settled as not completed.  The sample is taken tHALF into its slot (R91; log entry 2). -/
def State.arbitrationLost (s : State) : State :=
  if s.mode = .run ∧ s.line.tx.isSome = true then
    let lost := s.endAttempt.showLine .low
    if s.txSamples then lost else lost.modLine (LineInterface.dominantFor Config.tHALF)
  else s

def execArbitrationLoss (s : State) : Result := .next s.arbitrationLost

/-- DRIVER_FAULT (R106, R189): the transmitter releases the pin, which reads recessive (R108), and returns to
IDLE, and the station enters QUIET. -/
def State.driverFault (s : State) : State :=
  if s.mode = .run ∧ s.line.tx.isSome = true then
    State.followUp s (s.endAttempt.showLine .high).enterQuiet
  else s

def execDriverFault (s : State) : Result := .next s.driverFault

/-- BREAK_DETECTED (R102, R108, R172): the line has been dominant for tBREAK, its falling edge long past; a frame in SENDING is abandoned,
the receiver awaits idle, the assembly is in hunt, and LINE_STOP is set. -/
def State.breakDetected (s : State) : State :=
  let freed := (s.endAttempt.showLine .low).modLine (fun l =>
    { l.notIdle with
      was := .low, dominant := Config.tBREAK, breakInProgress := true, breakSeen := true })
  State.followUp s (freed.awaitIdle.discardAssembly.setCause .lineStop)

def execBreakDetected (s : State) : Result := .next s.breakDetected

/-- BREAK_END (R109): the line reads recessive; break in progress clears unless the own driver still drives.  A
line that the station itself still pulls goes on as a break that was detected (R108). -/
def State.breakEnds (s : State) : State :=
  (s.showLine .high).modLine (fun l =>
    { l with dominant := if s.selfPulls then l.dominant else 0, breakSeen := l.breakSeen && s.selfPulls,
             breakInProgress := l.breakInProgress && l.driver != .off })

def execBreakEnd (s : State) : Result := .next s.breakEnds

/-- LINE_FALLING_EDGE (R94, R95, R97). -/
def execLineFallingEdge (idle : Fin 12) (s : State) : Result := .next (s.fallingEdge idle.val)

/-- The receiver's check tHALF after a falling edge (R95): dominant is the start slot of a character, sampled;
recessive was a glitch. -/
def Receiver.recheck (level : Level) (r : Receiver) : Receiver :=
  match level with
  | .low => { r with phase := .character, check := none, elapsed := Config.tHALF, slots := [.low] }
  | .high => { r with check := none }

/-- The line at the check of a falling edge, tHALF after it (R95): where the part's own time has not come to the
check, a dominant line is brought there (log entry 2). -/
def State.recheckShown (level : Level) (s : State) : State :=
  let shown := s.showLine level
  if level = .low ∧ s.line.rx.check ≠ some 0 then shown.modLine (LineInterface.dominantFor Config.tHALF)
  else shown

/-- START_RECHECK (R95): taken by a READY receiver whose check is pending. -/
def State.startRecheck (level : Level) (s : State) : State :=
  let shown := if s.mode = .selfTest then s else s.recheckShown level
  if s.line.rx.phase = .ready ∧ s.line.rx.check.isSome = true then shown.modRx (Receiver.recheck level)
  else shown

def execStartRecheck (level : Level) (s : State) : Result := .next (s.startRecheck level)

end Sys2Proof.Machine
end

