-- ==== Sys2Proof/Machine/PeerFrames.lean ====
section
/-! DEFINITION. Peer frames that complete (06), one meaning for each kind: FI_FRAME to ST_FRAME and
UNKNOWN_KIND_FRAME.  Each passes the tests of R117 and is discarded, reported as a duplicate, or dispatched
under R124, also while the transmitter is SENDING (DESIGN CHOICE, log entry 35). -/

namespace Sys2Proof.Machine

/-- FI_FRAME (R74, R87, R153). -/
def execFiFrame (b : FrameBody) (s : State) : Result := .next (s.peerFrame (Frame.ofBody .fi b))

/-- TR_FRAME (R147, R152). -/
def execTrFrame (b : FrameBody) (s : State) : Result := .next (s.peerFrame (Frame.ofBody .tr b))

/-- RE_FRAME (R147). -/
def execReFrame (b : FrameBody) (s : State) : Result := .next (s.peerFrame (Frame.ofBody .re b))

/-- RB_FRAME (R145, R146, R151). -/
def execRbFrame (b : FrameBody) (s : State) : Result := .next (s.peerFrame (Frame.ofBody .rb b))

/-- RS_FRAME (R174). -/
def execRsFrame (b : FrameBody) (s : State) : Result := .next (s.peerFrame (Frame.ofBody .rs b))

/-- HD_FRAME (R61 to R64). -/
def execHdFrame (b : FrameBody) (s : State) : Result := .next (s.peerFrame (Frame.ofBody .hd b))

/-- RL_FRAME (R59). -/
def execRlFrame (b : FrameBody) (s : State) : Result := .next (s.peerFrame (Frame.ofBody .rl b))

/-- SQ_FRAME (R199). -/
def execSqFrame (b : FrameBody) (s : State) : Result := .next (s.peerFrame (Frame.ofBody .sq b))

/-- ST_FRAME (R120). -/
def execStFrame (b : FrameBody) (s : State) : Result := .next (s.peerFrame (Frame.ofBody .st b))

/-- UNKNOWN_KIND_FRAME (R120): kind code 9 + extra. -/
def execUnknownKindFrame (extra : Fin 7) (b : FrameBody) (s : State) : Result :=
  .next (s.peerFrame (Frame.ofBody (.unknown extra) b))

end Sys2Proof.Machine
end

