-- ==== Sys2Proof/Machine/OwnFrames.lean ====
section
/-! DEFINITION. The completions of the station's own frames (05 R107, 06 R125, 07 R138): OWN_FI_COMPLETION,
OWN_RB_COMPLETION, OWN_TR_COMPLETION and OWN_FRAME_COMPLETION.  The frame is the one in flight. -/

namespace Sys2Proof.Machine

/-- OWN_FI_COMPLETION (R73, R75, R87, R153). -/
def execOwnFiCompletion (s : State) : Result := .next (s.completeInFlight (fun kind => kind == .fi))

/-- OWN_RB_COMPLETION (R158, R159). -/
def execOwnRbCompletion (s : State) : Result := .next (s.completeInFlight (fun kind => kind == .rb))

/-- OWN_TR_COMPLETION (R152). -/
def execOwnTrCompletion (s : State) : Result := .next (s.completeInFlight (fun kind => kind == .tr))

/-- OWN_FRAME_COMPLETION: an own RE, RS or ST (R107, R125). -/
def execOwnFrameCompletion (s : State) : Result :=
  .next (s.completeInFlight (fun kind => kind == .re || kind == .rs || kind == .st))

end Sys2Proof.Machine
end

