-- ==== Sys2Proof/Machine/Dispatch.lean ====
section
/-! DEFINITION. What each command does: one arm per row of spec/opcode_table.json, one call of its meaning. -/

namespace Sys2Proof.Machine

def exec (i : Instr) (s : State) : Host.Outcome State Fault Refusal :=
  match i with
  | .reset => Sys2Proof.Machine.execReset s
  | .strapReading strap round code => Sys2Proof.Machine.execStrapReading strap round code s
  | .currentSample k code => Sys2Proof.Machine.execCurrentSample k code s
  | .supplySample code => Sys2Proof.Machine.execSupplySample code s
  | .probePulseStart k => Sys2Proof.Machine.execProbePulseStart k s
  | .rawInputChange pin level => Sys2Proof.Machine.execRawInputChange pin level s
  | .debounceExpiry pin => Sys2Proof.Machine.execDebounceExpiry pin s
  | .breakDriveMinimumEnd => Sys2Proof.Machine.execBreakDriveMinimumEnd s
  | .coolingExpiry k => Sys2Proof.Machine.execCoolingExpiry k s
  | .settleWindowExpiry k => Sys2Proof.Machine.execSettleWindowExpiry k s
  | .rampKAdvance k => Sys2Proof.Machine.execRampKAdvance k s
  | .rampCompletion k => Sys2Proof.Machine.execRampCompletion k s
  | .contendTimeout k => Sys2Proof.Machine.execContendTimeout k s
  | .confirmTimeout k => Sys2Proof.Machine.execConfirmTimeout k s
  | .flipWatchEnd k => Sys2Proof.Machine.execFlipWatchEnd k s
  | .yieldWatchEnd k => Sys2Proof.Machine.execYieldWatchEnd k s
  | .chatterWindowExpiry k => Sys2Proof.Machine.execChatterWindowExpiry k s
  | .pardonWindowEnd k => Sys2Proof.Machine.execPardonWindowEnd k s
  | .millisecondTick => Sys2Proof.Machine.execMillisecondTick s
  | .peerEntryExpiry station district => Sys2Proof.Machine.execPeerEntryExpiry station district s
  | .floorExpiry => Sys2Proof.Machine.execFloorExpiry s
  | .holdoffEnd => Sys2Proof.Machine.execHoldoffEnd s
  | .lampPhaseAdvance => Sys2Proof.Machine.execLampPhaseAdvance s
  | .selftestCharacter raw => Sys2Proof.Machine.execSelftestCharacter raw s
  | .endOfSelftest => Sys2Proof.Machine.execEndOfSelftest s
  | .endOfListen => Sys2Proof.Machine.execEndOfListen s
  | .characterError raw => Sys2Proof.Machine.execCharacterError raw s
  | .shortError head => Sys2Proof.Machine.execShortError head s
  | .idleGap => Sys2Proof.Machine.execIdleGap s
  | .idleBoundaryAttempt => Sys2Proof.Machine.execIdleBoundaryAttempt s
  | .join idle => Sys2Proof.Machine.execJoin idle s
  | .arbitrationLoss => Sys2Proof.Machine.execArbitrationLoss s
  | .driverFault => Sys2Proof.Machine.execDriverFault s
  | .breakDetected => Sys2Proof.Machine.execBreakDetected s
  | .breakEnd => Sys2Proof.Machine.execBreakEnd s
  | .fiFrame b => Sys2Proof.Machine.execFiFrame b s
  | .trFrame b => Sys2Proof.Machine.execTrFrame b s
  | .reFrame b => Sys2Proof.Machine.execReFrame b s
  | .rbFrame b => Sys2Proof.Machine.execRbFrame b s
  | .rsFrame b => Sys2Proof.Machine.execRsFrame b s
  | .hdFrame b => Sys2Proof.Machine.execHdFrame b s
  | .rlFrame b => Sys2Proof.Machine.execRlFrame b s
  | .sqFrame b => Sys2Proof.Machine.execSqFrame b s
  | .stFrame b => Sys2Proof.Machine.execStFrame b s
  | .unknownKindFrame extra b => Sys2Proof.Machine.execUnknownKindFrame extra b s
  | .ownFiCompletion => Sys2Proof.Machine.execOwnFiCompletion s
  | .ownRbCompletion => Sys2Proof.Machine.execOwnRbCompletion s
  | .ownTrCompletion => Sys2Proof.Machine.execOwnTrCompletion s
  | .ownFrameCompletion => Sys2Proof.Machine.execOwnFrameCompletion s
  | .cleanCharacter data mark => Sys2Proof.Machine.execCleanCharacter data mark s
  | .lineFallingEdge idle => Sys2Proof.Machine.execLineFallingEdge idle s
  | .startRecheck level => Sys2Proof.Machine.execStartRecheck level s

end Sys2Proof.Machine
end

