-- ==== Sys2Proof/Machine/Clock.lean ====
section
/-! DEFINITION. The part's own clock (log entry 1): the passing of one microsecond for every timer the spec
gives the part, and the commands that are due by those timers and by the pins.  The table has no row for the
passing of time, so the clock acts where the queue is empty. -/

namespace Sys2Proof.Machine

/-! ### One microsecond -/

/-- The converter's own time (R4, R5): a scan of tSCAN repeats without pause. -/
def Converter.advance (c : Converter) : Converter :=
  match c with
  | .straps i t => .straps i (t + 1)
  | .scan t taken => if t + 1 < Config.tSCAN then .scan (t + 1) taken else .scan 0 0

/-- A running hold timer holds 1 µs more (R11). -/
def Qualifier.advance (q : Qualifier) : Qualifier := { q with held := q.held.map (· + 1) }

/-- The timers of a district record, each in the state that reads it (R38, R46, R47, R54, R71, R82, R87). -/
def DistrictRecord.advance (d : DistrictRecord) : DistrictRecord :=
  match d.state with
  | .cooling => { d with cooling := d.cooling - 1 }
  | .live =>
    { d with settle := Timer.ticked d.settle,
             watchLeft := if d.watch = .none then d.watchLeft else d.watchLeft - 1 }
  | .ramping => { d with rampSub := d.rampSub + 1 }
  | .contend => { d with contend := Timer.ticked d.contend }
  | .halted => d
  | .dark => d
  | .probing => d
  | .queued => d
  | .switching => d
  | .locked => d

/-- The confirm timer and the chatter window (R78, R79), which run in every state of the district. -/
def Relay.advance (r : Relay) : Relay :=
  { r with confirm := Timer.ticked r.confirm, chatter := Timer.ticked r.chatter }

/-- The receiver after a microsecond (R91, R95, R96): the pending check and the hand-over come nearer; in
CHARACTER each slot is sampled at its middle, and the twelfth sample is judged and handed over tHALF later. -/
def Receiver.advance (input : Level) (r : Receiver) : Receiver :=
  let r := { r with check := Timer.ticked r.check, handing := r.handing.map (fun (h : RawChar × Nat) => (h.1, h.2 - 1)) }
  match r.phase with
  | .awaitIdle => r
  | .ready => r
  | .character =>
    let elapsed := r.elapsed + 1
    if elapsed % Config.tBIT = Config.tHALF then
      let slots := r.slots ++ [input]
      if Config.NSLOT ≤ slots.length then
        { r with phase := .ready, elapsed := 0, slots := [],
                 handing := some (RawChar.ofSlots slots, Config.tHALF) }
      else { r with elapsed := elapsed, slots := slots }
    else { r with elapsed := elapsed }

/-- The idle timer after a microsecond in which the line read this level (R94).  It stops short of NIDLE: the
last step is the command IDLE_GAP. -/
def LineInterface.idleAdvance (level : Level) (l : LineInterface) : Nat × Nat :=
  match level with
  | .low => (0, 0)
  | .high =>
    if Config.NIDLE ≤ l.idle then (l.idle, 0)
    else if l.idleSub + 1 < Config.tBIT then (l.idle, l.idleSub + 1)
    else if l.idle + 1 < Config.NIDLE then (l.idle + 1, 0)
    else (l.idle, Config.tBIT)

/-- The dominant timer after a microsecond in which the line read this level (R108). -/
def LineInterface.dominantAdvance (level : Level) (l : LineInterface) : Nat :=
  match level with
  | .low => min (l.dominant + 1) Config.tBREAK
  | .high => 0

/-- How long ago the falling edge was from which a character that begins at the end of this microsecond is timed
(R91): the edge that the receiver checks (log entry 19), or else the one that began the dominant run on the line.  A
recessive line shows the transmitter's own edge.  The loopback has no other sender. -/
def State.startEdgeAge (s : State) : Nat :=
  if s.mode = .selfTest then 0
  else
    match Timer.ticked s.line.rx.check with
    | some left => Config.tHALF - left
    | none =>
      let run := s.line.dominantAdvance s.lineLevel
      if run < Config.tBIT then run else 0

/-- The transmitter's slot timing (R91): at the end of its own stop slot, 192 µs into a character, its next one
begins, timed from an edge `age` ago; after the fourth it stands at the end of the 48th slot. -/
def Sending.advance (age : Nat) (x : Sending) : Sending :=
  if x.t + 1 < Config.tCHAR then { x with t := x.t + 1, lost := false }
  else if x.char < 3 then { x with char := x.char + 1, t := age, lost := false }
  else { x with t := Config.tCHAR, lost := false }

/-- The transmitter takes its sample at the instant at which the receiver takes its own (R91, R105). -/
def Sending.compared (read : Level) (x : Sending) : Sending :=
  { x with lost := x.samples && x.level == .high && read == .low }

/-- The transmitter after a microsecond; the self-test frame is over at its end and is not dispatched
(R185). -/
def State.txAdvance (s : State) : Option Sending :=
  match s.line.tx with
  | none => none
  | some x =>
    let y := x.advance s.startEdgeAge
    if s.mode = .selfTest ∧ y.done = true then none else some y

/-- The minimum time of the break driver (R110). -/
def BreakDriver.advance (b : BreakDriver) : BreakDriver :=
  match b with
  | .off => .off
  | .minimum ran => .minimum (min (ran + 1) Config.tBDRIVE)
  | .held => .held

/-- In SELFTEST the start slot of each further character is a falling edge of the loopback (R91, R185). -/
def State.loopbackEdge (before now : Option Sending) (s : State) (r : Receiver) : Receiver :=
  match before, now with
  | some x, some y => if s.mode = .selfTest ∧ x.char ≠ y.char then r.edge 0 else r
  | _, _ => r

/-- The line interface after a microsecond.  The idle and dominant timers go by the level that the line read
while it passed; the edge detector, the receiver and the transmitter's sample by the level at its end. -/
def State.lineAdvance (s : State) : LineInterface :=
  let tx := s.txAdvance
  let sent := s.modLine (fun l => { l with tx := tx, driver := l.driver.advance })
  let passed := s.lineLevel
  let l := s.line
  { l with
    tx := tx.map (Sending.compared sent.lineLevel), driver := l.driver.advance,
    was := if sent.lineLevel = .high then .high else l.was,
    rx := s.loopbackEdge l.tx tx (l.rx.advance sent.rxInput),
    idle := (l.idleAdvance passed).1, idleSub := (l.idleAdvance passed).2,
    dominant := l.dominantAdvance passed,
    bitLeft := if l.bitLeft = 0 then Config.tBIT - 1 else l.bitLeft - 1 }

/-- One microsecond passes for the whole part. -/
def State.advance (s : State) : State :=
  { s with
    converter := s.converter.advance,
    stopQ := s.stopQ.advance, resumeQ := s.resumeQ.advance, releaseQ := s.releaseQ.advance,
    cnfQ := s.cnfQ.map Qualifier.advance,
    selfTest := { s.selfTest with left := Timer.ticked s.selfTest.left },
    listen := Timer.ticked s.listen,
    haltEnded := false,
    districts := s.districts.map DistrictRecord.advance,
    relays := s.relays.map Relay.advance,
    line := s.lineAdvance,
    msLeft := s.msLeft - 1,
    lampLeft := s.lampLeft - 1 }

/-! ### What is due -/

/-- A command if its condition holds. -/
def dueIf (b : Bool) (c : Instr) : List Instr := if b then [c] else []

/-- A timer has run out and its end has not been taken. -/
def Timer.out (t : Timer) : Bool := t == some 0

/-- The command of a peer frame that completes, by its kind. -/
def Frame.command (f : Frame) : Instr :=
  let b : FrameBody := { prio := f.post.prio, sender := f.sender, loc := f.post.loc, data := f.post.data }
  match f.post.kind with
  | .fi => .fiFrame b
  | .tr => .trFrame b
  | .re => .reFrame b
  | .rb => .rbFrame b
  | .rs => .rsFrame b
  | .hd => .hdFrame b
  | .rl => .rlFrame b
  | .sq => .sqFrame b
  | .st => .stFrame b
  | .unknown extra => .unknownKindFrame extra b

/-- The command of a character that is handed over (R96, R98 to R100, R186). -/
def State.characterCommand (s : State) (raw : RawChar) : Instr :=
  if s.mode = .selfTest then .selftestCharacter raw
  else if raw.status ≠ .clean then .characterError raw
  else if s.handler.hunt = true ∨ s.assembles = false then .cleanCharacter raw.data raw.mark
  else
    match raw.mark, s.handler.held with
    | true, [] => .cleanCharacter raw.data true
    | true, _ => .shortError raw.data
    | false, [head, station, loc] => (Frame.ofChars head station loc raw.data).command
    | false, _ => .cleanCharacter raw.data false

/-- The command of an own completion, by the kind in flight. -/
def completionCommand (kind : Kind) : Instr :=
  match kind with
  | .fi => .ownFiCompletion
  | .rb => .ownRbCompletion
  | .tr => .ownTrCompletion
  | .re | .rs | .st | .hd | .rl | .sq | .unknown _ => .ownFrameCompletion

/-- Whether the transmitter stands at the end of its frame in RUN. -/
def State.txDone (s : State) : Bool := s.mode == .run && s.sentAll

/-- What the transmitter has due: completion, or the loss of arbitration that its sample found (R105, R107). -/
def State.dueTransmitter (s : State) : List Instr :=
  match s.line.tx with
  | none => []
  | some x =>
    if s.mode = .run then
      if x.done then [completionCommand x.frame.post.kind]
      else dueIf x.lost .arbitrationLoss
    else []

/-- What the receiver has due: the start re-check, and the hand-over of a character that is not the last one
of a frame this station completes. -/
def State.dueReceiver (s : State) : List Instr :=
  dueIf (s.line.rx.phase == .ready && Timer.out s.line.rx.check) (.startRecheck s.rxInput) ++
    match s.line.rx.handing with
    | some (raw, 0) => if s.txDone then [] else [s.characterCommand raw]
    | _ => []

/-- The falling edge that the line shows, a join attempt where R103 makes it one. -/
def State.edgeCommand (s : State) : Instr :=
  if s.mayAttempt && decide (Config.NJOIN ≤ s.line.idle) && s.handler.held == [] && !s.handler.hunt then
    .join (Fin.ofNat 12 s.line.idle)
  else .lineFallingEdge (Fin.ofNat 12 s.line.idle)

/-- What the line has due: an edge, the idle gap, an idle boundary, a break and its end, the end of tBDRIVE
(R94, R95, R103, R108 to R110).  The end of a break is due where one was detected (log entry 34). -/
def State.dueLine (s : State) : List Instr :=
  dueIf (s.line.was == .high && s.lineLevel == .low) s.edgeCommand ++
  dueIf (decide (s.line.idle < Config.NIDLE) && decide (Config.tBIT ≤ s.line.idleSub) &&
    s.lineLevel == .high) .idleGap ++
  dueIf (s.line.bitLeft == 0 && s.line.idle == Config.NIDLE && s.mayAttempt) .idleBoundaryAttempt ++
  dueIf (decide (Config.tBREAK ≤ s.line.dominant) && !s.line.breakSeen) .breakDetected ++
  dueIf (s.line.breakSeen && s.lineLevel == .high) .breakEnd ++
  match s.line.driver with
  | .minimum ran => dueIf (decide (Config.tBDRIVE ≤ ran)) .breakDriveMinimumEnd
  | .held => []
  | .off => []

/-- What the converter has due: the conversion that has ended, and at a start of scan the probe pulses
(R4 to R7, R49). -/
def State.dueConverter (s : State) : List Instr :=
  match s.converter with
  | .straps i t =>
    dueIf (s.mode == .straps && decide (i < Config.NSTRAP) && decide (Config.tCONV ≤ t))
      (.strapReading (Fin.ofNat 6 i) (Fin.ofNat 4 (i / 6)) (s.strPins.getD (i % 6) 0))
  | .scan t taken =>
    if s.mode = .straps then []
    else
      (if decide (taken < 5) && decide (Config.tCONV * (taken + 1) ≤ t) then
        (if taken < 4 then
          [.currentSample (Fin.ofNat 4 taken) (s.isenPins.get (Fin.ofNat 4 taken))]
        else [.supplySample s.vsenPin])
      else []) ++
      (if t = 0 then
        (allDistricts.filter (fun k => (s.record k).state == .probing && (s.record k).phase == .wait)).map
          Instr.probePulseStart
      else [])

/-- What the input qualifier has due (R11, R12). -/
def State.dueInputs (s : State) : List Instr :=
  (([InputPin.stop, InputPin.resume, InputPin.release] ++ allDistricts.map InputPin.cnf).filter (fun pin =>
    match (s.qualifier pin).held with
    | some t => decide (debounceTime pin ≤ t)
    | none => false)).map Instr.debounceExpiry

/-- What a district's timers have due. -/
def State.dueDistrict (s : State) (k : District) : List Instr :=
  let d := s.record k
  let r := s.relay k
  (match d.state with
    | .cooling =>
      dueIf (d.cooling == 0) (.coolingExpiry k) ++ 
      dueIf (d.pardonWindow && decide (Config.tPARDON < d.coolingRun)) (.pardonWindowEnd k)
    | .live =>
      dueIf (Timer.out d.settle) (.settleWindowExpiry k) ++
      dueIf (d.watch == .flip && d.watchLeft == 0) (.flipWatchEnd k) ++
      dueIf (d.watch == .yield && d.watchLeft == 0) (.yieldWatchEnd k)
    | .ramping =>
      if Config.ms ≤ d.rampSub then
        [if d.k + 1 < Config.kEND then .rampKAdvance k else .rampCompletion k]
      else []
    | .contend => dueIf (Timer.out d.contend) (.contendTimeout k)
    | .switching => dueIf (Timer.out r.confirm) (.confirmTimeout k)
    | .halted => dueIf (d.confirmPending && Timer.out r.confirm) (.confirmTimeout k)
    | .dark => []
    | .probing => []
    | .queued => []
    | .locked => []) ++
  dueIf (Timer.out r.chatter) (.chatterWindowExpiry k)

/-- The peer entries whose life has reached 0 (R148). -/
def State.duePeerEntries (s : State) : List Instr :=
  (s.ramp.list.filter (fun e => e.life == some 0)).map (fun e => .peerEntryExpiry e.station e.district)

/-- What the ramp list unit, the indication unit and station control have due. -/
def State.dueUnits (s : State) : List Instr :=
  dueIf (s.msLeft == 0) .millisecondTick ++ s.duePeerEntries ++
  (match s.ramp.floor with
    | some f => dueIf (f.life == 0) .floorExpiry
    | none => []) ++
  dueIf (s.ramp.holdoff == some 0) .holdoffEnd ++
  dueIf (s.lampLeft == 0) .lampPhaseAdvance ++
  dueIf (s.mode == .selfTest && Timer.out s.selfTest.left) .endOfSelftest ++
  dueIf (s.mode == .listen && Timer.out s.listen) .endOfListen

/-- The commands whose moment has come by the part's own timers and pins. -/
def State.dueAll (s : State) : List Instr :=
  s.dueTransmitter ++ s.dueReceiver ++ s.dueLine ++ s.dueConverter ++ s.dueInputs ++
  allDistricts.flatMap s.dueDistrict ++ s.dueUnits

/-- The command makes a contention attempt (R103). -/
def isAttempt (c : Instr) : Bool :=
  match c with
  | .idleGap | .idleBoundaryAttempt | .join _ => true
  | _ => false

/-- The command sets a halt cause: a break detected, STOP/ delivered low, or the fourth low supply sample (R9,
R172, R173). -/
def State.setsHaltCause (s : State) (c : Instr) : Bool :=
  match c with
  | .breakDetected => true
  | .debounceExpiry .stop => s.stopQ.raw == .low
  | .supplySample v => s.supply.present && (s.supply.counted v).lowRun == Config.NLOW
  | _ => false

/-- The commands that are due now.  Where a halt has ended at this very moment and a halt cause is still to be
set at it, no contention attempt falls between the two (R178, log entry 31). -/
def State.due (s : State) : List Instr :=
  if s.haltEnded && s.dueAll.any s.setsHaltCause then s.dueAll.filter (fun c => !isAttempt c) else s.dueAll

/-- The clock's step, taken on an empty queue (log entries 1 and 4): a microsecond passes if nothing is due;
a command that is due is run; of several, which may be taken in any order, the free value picks one. -/
def State.clockStep (s : State) : Result :=
  match s.due with
  | [] => .next s.advance
  | [c] => exec c s
  | c :: d :: rest =>
    exec ((c :: d :: rest).getD (Config.tieBreak s.tie % (rest.length + 2)) c) { s with tie := s.tie + 1 }

end Sys2Proof.Machine
end

