-- ==== Sys2Proof/Safety.lean ====
section
/-! DEFINITION. What holds of the part in every state it should be in, in the terms the statements use: the
outgoing queue (R131, R132), the halt (R164, R169), the gate and the trip engine (R20, R36), the ramp list
(R144, R149), the count and the hold (R44, 03 3.11), and the frames that statements name. -/

namespace Sys2Proof.Machine

/-! ### Conditions that every step keeps -/

/-- An entry that the transmitter is sending. -/
def Entry.isOnLine (e : Entry) : Bool :=
  match e.phase with
  | .waiting => false
  | .onLine _ => true

/-- R130 to R132: at most NQUEUE entries, in rank order, at most one RB, no two of one kind with one WHERE, at
most one ON_LINE and none while the transmitter is IDLE; nothing outside RUN. -/
abbrev State.QueueOk (s : State) : Prop :=
  s.queue.length ≤ Config.NQUEUE ∧
  s.queue.Pairwise (fun a b => a.frame.rank < b.frame.rank) ∧
  s.queue.Pairwise (fun a b => ¬ (a.frame.kind = b.frame.kind ∧ a.frame.loc = b.frame.loc)) ∧
  (s.queue.filter (fun e => e.frame.kind == .rb)).length ≤ 1 ∧
  (s.queue.filter Entry.isOnLine).length ≤ 1 ∧
  (s.line.tx = none → ∀ e ∈ s.queue, e.phase = .waiting) ∧
  (s.mode ≠ .run → s.queue = [])

/-- R164, R165, R171, R177, 01 1.4: a halted station has every district HALTED; a station that is not halted has
a HALTED district only while its changeover is pending; START is present outside RUN and QUIET alone; SUPPLY
agrees with the monitor's flag. -/
abbrev State.HaltOk (s : State) : Prop :=
  (s.halted = true → ∀ k : District, (s.record k).state = .halted) ∧
  (s.halted = false → ∀ k : District,
    (s.record k).state = .halted → (s.record k).confirmPending = true) ∧
  (s.halt.start = true ↔ s.mode ≠ .run ∧ s.mode ≠ .quiet) ∧
  s.halt.supply = !s.supply.present

/-- R20, R36: a district whose gate is off has E 0, the hard-run counter 0 and no probe record. -/
abbrev State.GateOk (s : State) : Prop :=
  ∀ k : District, s.gate k = false → s.engine k = Engine.cleared

/-- The ramp list holds the station's own entry of district k. -/
def State.hasOwnEntry (s : State) (k : District) : Bool :=
  s.ramp.list.any (fun e => e.isOwn && e.district == k)

/-- R143, R144, R149: at most NLIST entries, no key twice; own entries carry ID and peer entries do not; the own
entries are the districts that are RAMPING; without a configuration nothing is recorded; B is at most 16. -/
abbrev State.RampListOk (s : State) : Prop :=
  s.ramp.list.length ≤ Config.NLIST ∧
  s.ramp.list.Pairwise (fun a b => ¬ (a.station = b.station ∧ a.district = b.district)) ∧
  (∀ e ∈ s.ramp.list, (e.isOwn = true ↔ e.station = s.stationId)) ∧
  (∀ k : District, s.hasOwnEntry k = true ↔ (s.record k).state = .ramping) ∧
  (s.config = none ↔ s.mode = .straps ∨ s.mode = .strapFault) ∧
  (s.config = none → s.ramp.list = []) ∧
  s.budget ≤ Config.NLIST

/-- R44: n is at most NLOCK, and a district whose n is NLOCK is LOCKED, or HALTED with return class LOCKED. -/
abbrev DistrictRecord.CountOk (d : DistrictRecord) : Prop :=
  d.n ≤ Config.NLOCK ∧
  (d.n = Config.NLOCK →
    d.state = .locked ∨ d.state = .halted ∧ d.confirmPending = false ∧ d.returnClass = .locked)

/-- 03 3.11, R53, R62, R63: a DARK district has its hold set, and so has a HALTED one that returns to DARK; a hold
stands only in DARK, SWITCHING, LOCKED and HALTED, there with return class DARK or LOCKED once it is settled. -/
abbrev DistrictRecord.HoldOk (d : DistrictRecord) : Prop :=
  (d.state = .dark → d.hold = true) ∧
  (d.state = .halted → d.confirmPending = false → d.returnClass = .dark → d.hold = true) ∧
  (d.hold = true → d.state = .dark ∨ d.state = .switching ∨ d.state = .locked ∨ d.state = .halted) ∧
  (d.hold = true → d.state = .halted → d.confirmPending = false →
    d.returnClass = .dark ∨ d.returnClass = .locked)

abbrev State.RecordsOk (s : State) : Prop :=
  ∀ k : District, (s.record k).CountOk ∧ (s.record k).HoldOk

/-- R161: no direct start is owed: in QUIET no eligible district waits in QUEUED while none is RAMPING. -/
abbrev State.NoStartOwed (s : State) : Prop :=
  ¬ (s.mode = .quiet ∧ s.eligible = true ∧ s.anyDistrict .ramping = false ∧ s.queuedDistricts ≠ [])

/-! ### What statements say of a command -/

/-- The command answers a next state, and it is one of which P holds. -/
abbrev Completes (c : Instr) (s : State) (P : State → Prop) : Prop :=
  ∃ t : State, exec c s = .next t ∧ P t

/-- The queue after a posting: the queue takes it in RUN alone (R132). -/
def State.queueWith (s : State) (p : Post) : List Entry :=
  if s.mode = .run then (postInto p s.queue).queue else s.queue

/-- R131: the frame a ranks ahead of the frame b. -/
abbrev Post.ranksAhead (a b : Post) : Prop :=
  a.kind.code < b.kind.code ∨
    a.kind.code = b.kind.code ∧ (a.prio < b.prio ∨ a.prio = b.prio ∧ a.loc.code < b.loc.code)

/-- What one posting of p leaves (R131 to R134).  Outside RUN the queue is unchanged.  In RUN it stays in rank
order; a frame of the same kind and WHERE, or the one RB for an RB, is replaced, and marked changed if it is
ON_LINE; a queue with room gains a WAITING entry; a full one discards the later in rank of the posted frame and
the last WAITING entry, and then an RB discarded leaves no RB district (R134, R157). -/
abbrev State.places (s : State) (p : Post) (t : State) : Prop :=
  t.queue = s.queueWith p ∧
  (s.mode ≠ .run → t.queue = s.queue) ∧
  (s.mode = .run →
    let same := fun e : Entry => e.frame.kind = p.kind ∧ (e.frame.loc = p.loc ∨ p.kind = .rb)
    let new : Entry := { frame := p, phase := .waiting }
    t.queue.Pairwise (fun a b => a.frame.ranksAhead b.frame) ∧
    (∀ e ∈ s.queue, same e →
      t.queue.length = s.queue.length ∧ (∀ x ∈ s.queue, ¬ same x → x ∈ t.queue) ∧
      (e.phase = .waiting → new ∈ t.queue) ∧
      (e.phase ≠ .waiting → { new with phase := .onLine .changed } ∈ t.queue)) ∧
    ((∀ e ∈ s.queue, ¬ same e) → s.queue.length < 8 →
      t.queue.length = s.queue.length + 1 ∧ (∀ x ∈ s.queue, x ∈ t.queue) ∧ new ∈ t.queue) ∧
    ((∀ e ∈ s.queue, ¬ same e) → s.queue.length = 8 → ∀ last ∈ s.queue, last.phase = .waiting →
      (∀ x ∈ s.queue, x.phase = .waiting → ¬ last.frame.ranksAhead x.frame) →
      (last.frame.ranksAhead p → t.queue = s.queue) ∧
      (p.ranksAhead last.frame → t.queue.length = 8 ∧ new ∈ t.queue ∧ last ∉ t.queue ∧
        (∀ x ∈ s.queue, x ≠ last → x ∈ t.queue) ∧
        (last.frame.kind = .rb → t.ramp.rbDistrict = none))))

/-- An entry as an offer sees it: an RB's priority nibble is 15 − u for the present urgency (R135, R156). -/
def State.refreshedEntry (s : State) (e : Entry) : Entry :=
  if e.frame.kind = .rb then
    { e with frame := { e.frame with
        prio := Fin.ofNat 16 (15 - min 15 ((s.record e.frame.loc.district).w / 128)) } }
  else e

/-- The transmitter begins a frame: its copy carries the station's number (R103, R116, R130). -/
def State.begins (s : State) (p : Post) : LineInterface :=
  { s.line with bitLeft := 16,
                tx := some { frame := { post := p, sender := s.stationId }, char := 0, t := 0 } }

/-- District j is the QUEUED district with the largest w, the lower number among equals (R155). -/
abbrev State.waitsLongest (t : State) (j : District) : Prop :=
  (t.record j).state = .queued ∧
  ∀ i : District, (t.record i).state = .queued →
    (t.record i).w < (t.record j).w ∨ (t.record i).w = (t.record j).w ∧ j ≤ i

/-- District j is chosen and the RB district, and the queue holds the one RB of the station, for j, with nibble
15 − u and DATA B (R155, R156). -/
abbrev State.offersRamp (t : State) (j : District) : Prop :=
  t.ramp.chosen = some j ∧ t.ramp.rbDistrict = some j ∧
  (t.queue.filter (fun e => e.frame.kind == .rb)).length = 1 ∧
  ∃ e ∈ t.queue, e.frame =
    { kind := .rb, prio := Fin.ofNat 16 (15 - min 15 ((t.record j).w / 128)),
      loc := { group := t.group, district := j, all := false, set := false }, data := BitVec.ofNat 8 t.budget }

/-- A frame of the station for a district, with priority nibble 0 and the flags clear (R116). -/
def State.frameFor (s : State) (kind : Kind) (k : District) (data : Nat) : Post :=
  { kind := kind, prio := 0, loc := { group := s.group, district := k, all := false, set := false },
    data := BitVec.ofNat 8 data }

/-- Strap j has band b: four readings, all in band b and outside its guard zones (R181). -/
abbrev StrapHasBand (rs : List Reading) (j : Fin 6) (b : Nat) : Prop :=
  (codesOf rs j).length = 4 ∧
  ∀ c ∈ codesOf rs j, c.toNat / 64 = b ∧ 8 ≤ c.toNat % 64 ∧ c.toNat % 64 ≤ 55

/-- The seven debounced inputs. -/
def allInputs : List InputPin := [.stop, .resume, .release, .cnf 0, .cnf 1, .cnf 2, .cnf 3]

/-- The values that the reset tables give (01 1.8, R18, R68, R89, R113, R129, R141, R163, R164, R180, R202). -/
abbrev State.AtReset (t : State) : Prop :=
  t.mode = .straps ∧ t.readings = [] ∧ t.config = none ∧ t.halt = ⟨true, false, true⟩ ∧
  t.selfTestNote = false ∧ t.duplicateNote = false ∧ t.listen = none ∧ t.converter = .straps 0 0 ∧
  t.supply = ⟨0, 0, false⟩ ∧ (∀ pin ∈ allInputs, (t.qualifier pin).settled = none ∧ (t.qualifier pin).held = some 0) ∧
  (∀ k : District, t.engine k = ⟨0, 0, none⟩) ∧
  (∀ k : District, (t.record k).state = .halted ∧ (t.record k).returnClass = .queue ∧
    (t.record k).confirmPending = false ∧ (t.record k).reversing = false ∧ (t.record k).n = 0 ∧
    (t.record k).lastFault = .none ∧ (t.record k).hold = false ∧ (t.record k).cooling = 0 ∧
    (t.record k).k = 0 ∧ (t.record k).w = 0 ∧ (t.record k).phase = .wait ∧ (t.record k).settle = none ∧
    (t.record k).watch = .none ∧ (t.record k).contend = none ∧ (t.record k).yielded = false ∧
    (t.record k).probeFlipTried = false ∧ (t.record k).pardoned = false ∧ (t.record k).origin = .live) ∧
  (∀ k : District, t.relay k =
    { pol := none, commanded := false, cnf := none, confirm := none, flipCount := 0, chatter := none }) ∧
  (∀ k : District, t.gate k = false ∧ t.lamp k = false) ∧
  t.line.rx.phase = .awaitIdle ∧ t.line.rx.slots = [] ∧ t.line.idle = 0 ∧ t.line.tx = none ∧
  t.line.dominant = 0 ∧ t.line.breakInProgress = false ∧ t.line.driver = .off ∧
  t.handler = { held := [], hunt := true } ∧ t.queue = [] ∧
  t.ramp.list = [] ∧ t.ramp.floor = none ∧ t.ramp.holdoff = none ∧ t.ramp.intentAge = 255 ∧
  t.ramp.rbDistrict = none ∧ t.alert = false ∧ t.lampPhase = 0

/-! ### Frames of a command -/

/-- Every district but k has the record, the trip engine and the changeover state it had. -/
abbrev State.othersKept (k : District) (s t : State) : Prop :=
  ∀ j : District, j ≠ k → t.record j = s.record j ∧ t.engine j = s.engine j ∧ t.relay j = s.relay j

/-- Everything but the districts, their trip engines and changeover states, the queue, the ramp list unit and the
latch is as it was. -/
abbrev State.sameOutsideDistricts (s t : State) : Prop :=
  t = { s with districts := t.districts, engines := t.engines, relays := t.relays, queue := t.queue,
               ramp := t.ramp, alert := t.alert }

/-- Only district k, the queue, the ramp list unit and the latch may differ. -/
abbrev State.onlyDistrict (k : District) (s t : State) : Prop :=
  State.othersKept k s t ∧ State.sameOutsideDistricts s t

/-- Only district k differs: the queue, the ramp list unit and the latch are as they were too. -/
abbrev State.districtAlone (k : District) (s t : State) : Prop :=
  State.onlyDistrict k s t ∧ t.queue = s.queue ∧ t.ramp = s.ramp ∧ t.alert = s.alert

/-- The ramp list unit is as it was, but that an RB discarded by overflow leaves no RB district (R157). -/
abbrev State.rampKept (s t : State) : Prop :=
  t.ramp = { s.ramp with rbDistrict := t.ramp.rbDistrict } ∧
  (t.ramp.rbDistrict = s.ramp.rbDistrict ∨ t.ramp.rbDistrict = none)

/-- Only the line interface and the frame assembly may differ. -/
abbrev State.onlyLine (s t : State) : Prop := t = { s with line := t.line, handler := t.handler }

/-- The part just after the conversion of ISENk has been handed on (R5, R6). -/
def State.sampled (s : State) (k : District) (code : Code) : State :=
  { s with isenPins := s.isenPins.set k code,
           converter := match s.converter with
             | .straps i t => .straps i t
             | .scan _ _ => .scan (40 * (k.val + 1)) (k.val + 1) }

/-- What a flip intent of the group does to a CONTEND district k (R74, R82, R83): with yielded set it goes on;
else it yields: its own FI is withdrawn (R137) and it leaves by its origin, n kept. -/
abbrev State.yieldsToIntent (s t : State) (k : District) : Prop :=
  let d := s.record k
  let e := t.record k
  (d.state = .contend → d.yielded = true → e = d) ∧
  (d.state = .contend → d.yielded = false →
    e.n = d.n ∧
    (∀ x ∈ t.queue, x.frame.kind = .fi → x.frame.loc.district = k → x.phase = .onLine .withdrawn) ∧
    (d.origin = .live → e.state = .live ∧ e.watch = .yield ∧ e.watchLeft = 20000 ∧ e.yielded = true ∧
      e.settle = none ∧ t.gate k = true ∧ t.engine k = ⟨0, 0, none⟩) ∧
    (d.origin = .ramp → e.w = 0 ∧ e.yielded = true ∧
      (e.state = .queued ∨ s.mode = .quiet ∧ e.state = .ramping)) ∧
    (d.origin = .probe → s.relayDisagrees k = false → e.state = .probing ∧ e.phase = .wait ∧
      e.yielded = true ∧ e.probeFlipTried = d.probeFlipTried))

/-- What a flip intent of the group does to a COOLING district k (R87, R88): a non-reversing one whose window after
the trip is open and that has not been pardoned is pardoned: n as before the trip's increment, cooling remaining
30 ms from the last whole ms that ran.  Any other is as it was. -/
abbrev State.pardonedByIntent (s t : State) (k : District) : Prop :=
  let d := s.record k
  d.state = .cooling → t.record k =
    if d.reversing = false ∧ d.pardoned = false ∧ d.pardonWindow = true then
      (let ran := Config.tCOOL d.n - d.cooling
       { d with cooling := min d.cooling (30000 + min (ran / 1000 * 1000) 10000 - ran), n := d.n - 1,
                pardoned := true, pardonWindow := false })
    else d

/-- What the beginning of a halt does to district k (R166 to R168). -/
abbrev State.haltsDistrict (s t : State) (k : District) : Prop :=
  let d := s.record k
  let e := t.record k
  (d.state = .halted → e = d) ∧
  (d.state ≠ .halted →
    e.state = .halted ∧ t.gate k = false ∧ t.engine k = ⟨0, 0, none⟩ ∧ e.settle = none ∧ e.watch = .none ∧
    e.contend = none ∧ e.yielded = false ∧ e.probeFlipTried = false ∧ e.n = d.n ∧
    e.lastFault = d.lastFault ∧ e.hold = d.hold ∧ e.pardoned = d.pardoned ∧ e.reversing = d.reversing ∧
    e.origin = d.origin ∧ t.relay k = s.relay k ∧
    (e.confirmPending = true ↔ d.state = .switching)) ∧
  (d.state = .live ∨ d.state = .ramping ∨ d.state = .queued → e.returnClass = .queue) ∧
  (d.state = .contend → d.origin ≠ .probe → e.returnClass = .queue) ∧
  (d.state = .contend → d.origin = .probe → e.returnClass = .cool) ∧
  (d.state = .cooling ∨ d.state = .probing → e.returnClass = .cool) ∧
  (d.state = .dark → e.returnClass = .dark) ∧
  (d.state = .locked → e.returnClass = .locked) ∧
  (d.state = .contend → ∀ x ∈ t.queue, x.frame.kind = .fi → x.frame.loc.district = k →
    x.phase = .onLine .withdrawn) ∧
  (d.state = .queued → ∀ x ∈ t.queue, x.frame.kind = .rb → x.frame.loc.district = k →
    x.phase = .onLine .withdrawn)

/-- What the end of a halt does to district k (R170, R171); in QUIET a district of class QUEUE may start its ramp
in the same step (R161). -/
abbrev State.leavesHalted (s t : State) (k : District) : Prop :=
  let d := s.record k
  let e := t.record k
  d.state = .halted →
    (d.confirmPending = true → e = d) ∧
    (d.confirmPending = false →
      e.n = d.n ∧ e.hold = d.hold ∧
      (d.returnClass = .queue →
        e.w = 0 ∧ (e.state = .queued ∨ t.mode = .quiet ∧ e.state = .ramping ∧ e.k = 0)) ∧
      (d.returnClass = .cool → e.state = .cooling ∧ e.cooling = Config.tCOOL d.n ∧ e.pardonWindow = false) ∧
      (d.returnClass = .probe → s.relayDisagrees k = false → e.state = .probing ∧ e.phase = .wait) ∧
      (d.returnClass = .probe → s.relayDisagrees k = true →
        e.state = .locked ∧ e.lastFault = .relay ∧ t.alert = true) ∧
      (d.returnClass = .dark → e.state = .dark) ∧
      (d.returnClass = .locked → e.state = .locked ∧ t.alert = true))

end Sys2Proof.Machine
end

