-- ==== Sys2Proof/WellFormed.lean ====
section
/-! DEFINITION. Which commands are well-formed.  Every operand's range is in its type; the one check left
is that a character error carries a character that is in error. -/

namespace Sys2Proof

/-- A command whose operands agree with what its row says of the event.  CHARACTER_ERROR is a character of
status PARITY or FRAMING (R96, R99); every other command's operands are free in their types. -/
def Instr.wf : Instr → Bool
  | .reset => true
  | .strapReading _ _ _ => true
  | .currentSample _ _ => true
  | .supplySample _ => true
  | .probePulseStart _ => true
  | .rawInputChange _ _ => true
  | .debounceExpiry _ => true
  | .breakDriveMinimumEnd => true
  | .coolingExpiry _ => true
  | .settleWindowExpiry _ => true
  | .rampKAdvance _ => true
  | .rampCompletion _ => true
  | .contendTimeout _ => true
  | .confirmTimeout _ => true
  | .flipWatchEnd _ => true
  | .yieldWatchEnd _ => true
  | .chatterWindowExpiry _ => true
  | .pardonWindowEnd _ => true
  | .millisecondTick => true
  | .peerEntryExpiry _ _ => true
  | .floorExpiry => true
  | .holdoffEnd => true
  | .lampPhaseAdvance => true
  | .selftestCharacter _ => true
  | .endOfSelftest => true
  | .endOfListen => true
  | .characterError raw => raw.status != .clean
  | .shortError _ => true
  | .idleGap => true
  | .idleBoundaryAttempt => true
  | .join _ => true
  | .arbitrationLoss => true
  | .driverFault => true
  | .breakDetected => true
  | .breakEnd => true
  | .fiFrame _ => true
  | .trFrame _ => true
  | .reFrame _ => true
  | .rbFrame _ => true
  | .rsFrame _ => true
  | .hdFrame _ => true
  | .rlFrame _ => true
  | .sqFrame _ => true
  | .stFrame _ => true
  | .unknownKindFrame _ _ => true
  | .ownFiCompletion => true
  | .ownRbCompletion => true
  | .ownTrCompletion => true
  | .ownFrameCompletion => true
  | .cleanCharacter _ _ => true
  | .lineFallingEdge _ => true
  | .startRecheck _ => true

end Sys2Proof
end

