-- ==== Sys2Proof/Certificates/Slice0/Obligations.lean ====
section
/-! DEFINITION. The statements for the provers.  Each is a Prop; its docstring names the rules of spec/ it says
and, where it rests on one, the entry of the assumption log. -/

section

open Sys2Proof Sys2Proof.Machine

/-! ### The step -/

/-- A step takes the command at the front of the queue and runs it on the rest (the block's interface). -/
def Obligations.StepRunsFrontCommand : Prop :=
  ∀ (s : State) (c : Instr) (rest : List Instr),
    step { s with pending := c :: rest } = exec c { s with pending := rest }

/-- On an empty queue the part's own clock acts: a microsecond passes if nothing is due, and else a due command
is run.  The model's choice (log entries 1 and 4). -/
def Obligations.EmptyQueueStepsTheClock : Prop :=
  ∀ (s : State), s.pending = [] →
    (s.due = [] → step s = .next s.advance) ∧
    (s.due ≠ [] → ∃ c ∈ s.due, step s = exec c s ∨ step s = exec c { s with tie := s.tie + 1 })

/-- Every command of the table completes in every state: none stops the machine.  (The machine has no fault, and
commands whose event cannot arise change nothing, log entry 3.) -/
def Obligations.EveryCommandCompletes : Prop :=
  ∀ (c : Instr) (s : State), Completes c s (fun _ => True)

/-! ### Reset and start-up -/

/-- The machine right after reset holds the values of the reset tables (R18, R68, R89, R113, R129, R141, R163,
R164, R180, R202), and no command waits. -/
def Obligations.ResetValues : Prop := State.reset.AtReset ∧ State.reset.pending = []

/-- RESET from any state leaves the same values and abandons whatever was in progress (R113, R141, R180).  The
levels on the input pins stay, which is the model's choice (log entries 7 and 17). -/
def Obligations.ResetCommand : Prop :=
  ∀ (s : State), Completes .reset s (fun t =>
    t.AtReset ∧ t.pending = s.pending ∧ t.strPins = s.strPins ∧ t.isenPins = s.isenPins ∧
    t.vsenPin = s.vsenPin ∧ t.line.pulled = s.line.pulled ∧
    ∀ pin ∈ allInputs, (t.qualifier pin).raw = (s.qualifier pin).raw)

/-- STRAP_READING before the last reading: the code is recorded under its strap and round and the converter goes
on; outside STRAPS the straps are not read (R4; log entry 18 for the order of the readings). -/
def Obligations.StrapReadingRecorded : Prop :=
  ∀ (s : State) (strap : Fin 6) (round : Fin 4) (code : Code),
    (s.mode = .straps → (recordReading ⟨strap, round, code⟩ s.readings).length < 24 →
      Completes (.strapReading strap round code) s (fun t =>
        ⟨strap, round, code⟩ ∈ t.readings ∧
        (∀ x ∈ s.readings, (x.strap, x.round) ≠ (strap, round) → x ∈ t.readings) ∧
        t = { s with readings := t.readings, strPins := s.strPins.set strap.val code,
                     converter := .straps (6 * round.val + strap.val + 1) 0 })) ∧
    (s.mode ≠ .straps → exec (.strapReading strap round code) s = .next s)

/-- The 24th reading with six good straps and a station number below 255: the configuration of R182 is handed on,
the reversing flags and the polarities are set (R39, R70), and the station enters SELFTEST with the self-test
frame (R183, R185). -/
def Obligations.GoodStrapsEnterSelftest : Prop :=
  ∀ (s : State) (strap : Fin 6) (round : Fin 4) (code : Code) (b0 b1 b2 b3 b4 b5 : Fin 16),
    s.mode = .straps →
    (let rs := recordReading ⟨strap, round, code⟩ s.readings
     24 ≤ rs.length ∧ StrapHasBand rs 0 b0 ∧ StrapHasBand rs 1 b1 ∧ StrapHasBand rs 2 b2 ∧
       StrapHasBand rs 3 b3 ∧ StrapHasBand rs 4 b4 ∧ StrapHasBand rs 5 b5) →
    ¬ (b0 = 15 ∧ b1 = 15) →
    Completes (.strapReading strap round code) s (fun t =>
      t.mode = .selfTest ∧
      (∃ id : StationNumber, id.val = 16 * b0.val + b1.val ∧
        t.config = some { id := id, group := b2, budget := b3.val + 1, trip := b4, rev := b5 } ∧
        t.line.tx.map (fun x => x.frame.chars) =
          some [0x80#8, BitVec.ofNat 8 id.val, BitVec.ofNat 8 (16 * b2.val), BitVec.ofNat 8 (255 - id.val)]) ∧
      (∀ k : District, (t.record k).reversing = b5.val.testBit k.val) ∧
      (∀ k : District, b5.val.testBit k.val = false → (t.relay k).pol = some .low) ∧
      (∀ k : District, b5.val.testBit k.val = true → ∀ l : Level, (s.cnfQ.get k).settled = some l →
        (t.relay k).pol = some l ∧ (t.relay k).cnf = some l ∧
          (t.relay k).commanded = (s.relay k).commanded) ∧
      t.line.rx.phase = .ready ∧ t.selfTest = { handed := 0, matched := true, left := some 800 } ∧
      t.converter = .scan 0 0 ∧ t.halt = s.halt ∧ t.alert = s.alert ∧ t.queue = s.queue)

/-- The 24th reading with a strap that is not good, or with station number 255: STRAP_FAULT, the ALERT latch set,
every POL low, no configuration (R181, R182, R184). -/
def Obligations.BadStrapsEnterStrapFault : Prop :=
  ∀ (s : State) (strap : Fin 6) (round : Fin 4) (code : Code),
    s.mode = .straps →
    (let rs := recordReading ⟨strap, round, code⟩ s.readings
     24 ≤ rs.length ∧
       ((∃ j : Fin 6, ∀ b : Fin 16, ¬ StrapHasBand rs j b) ∨ (StrapHasBand rs 0 15 ∧ StrapHasBand rs 1 15))) →
    Completes (.strapReading strap round code) s (fun t =>
      t.mode = .strapFault ∧ t.alert = true ∧ t.config = s.config ∧ t.halt = s.halt ∧
      (∀ k : District, (t.relay k).pol = some .low ∧ t.record k = s.record k) ∧ t.converter = .scan 0 0)

/-- SELFTEST_CHARACTER compares the character with the one sent in its position; END_OF_SELFTEST sets the note
unless four characters came and all matched, puts the receiver back in AWAIT_IDLE (READY at once on an idle
line) and the assembly in hunt, and enters LISTEN for 100 ms (R186, R187).  R186 gives no moment for the note after
a mismatch: that SELFTEST_CHARACTER leaves it and END_OF_SELFTEST sets it is the model's DESIGN CHOICE (log
entry 30). -/
def Obligations.SelftestJudged : Prop :=
  ∀ (s : State) (raw : RawChar) (c : StationConfig), s.mode = .selfTest → s.config = some c →
    (s.selfTest.handed < 4 → Completes (.selftestCharacter raw) s (fun t =>
      t.selfTest.handed = s.selfTest.handed + 1 ∧ t.selfTest.left = s.selfTest.left ∧
      (t.selfTest.matched = true ↔ s.selfTest.matched = true ∧ raw.status = .clean ∧
        raw.data = c.selfTestFrame.chars.getD s.selfTest.handed 0 ∧
        (raw.mark = true ↔ s.selfTest.handed = 0)) ∧
      t = { s with selfTest := t.selfTest, line := t.line })) ∧
    Completes .endOfSelftest s (fun t =>
      t.mode = .listen ∧ t.listen = some 100000 ∧
      (t.selfTestNote = true ↔
        s.selfTestNote = true ∨ ¬ (s.selfTest.handed = 4 ∧ s.selfTest.matched = true)) ∧
      t.line.rx.phase = (if s.line.idle < 11 then .awaitIdle else .ready) ∧ t.line.rx.slots = [] ∧
      t.line.rx.handing = none ∧ t.line.tx = none ∧ t.handler = { held := [], hunt := true } ∧
      t.districts = s.districts ∧ t.halt = s.halt ∧ t.queue = s.queue ∧ t.ramp = s.ramp)

/-- END_OF_LISTEN.  With both notes clear: RUN, START cleared, and the halt ends if no other cause is present (R170,
R177, R188), and the RB of the QUEUED district that waits longest is offered (R155, R156, R188; stated of an empty
queue and of waits below WMAX).  With a note set: QUIET, with the effects of R189. -/
def Obligations.EndOfListenStartsStation : Prop :=
  ∀ (s : State), s.mode = .listen →
    (s.selfTestNote = false → s.duplicateNote = false → Completes .endOfListen s (fun t =>
      t.mode = .run ∧ t.halt = { s.halt with start := false } ∧ t.listen = none ∧
      (s.halted = true → t.halted = false → ∀ k : District, s.leavesHalted t k) ∧
      (s.halted = false ∨ t.halted = true → t.districts = s.districts) ∧
      t.config = s.config ∧ t.relays = s.relays ∧ t.line = s.line ∧
      (s.queue = [] → s.ramp.rbDistrict = none → ∀ j : District, t.waitsLongest j → (t.record j).w < 65535 →
        t.offersRamp j))) ∧
    (s.selfTestNote = true ∨ s.duplicateNote = true → Completes .endOfListen s (fun t =>
      t.mode = .quiet ∧ t.halt = { s.halt with start := false } ∧ t.listen = none ∧ t.queue = [] ∧
      t.ramp.rbDistrict = none ∧ t.alert = true ∧
      (s.halted = true → t.halted = false → ∀ k : District, s.leavesHalted t k) ∧
      (t.halted = true → t.districts = s.districts)))

/-! ### Samples of the current and of the supply -/

/-- CURRENT_SAMPLE while the gate of district k is off: the sample is discarded, in every such state (R20).  In LIVE
or RAMPING when the sample brings no detection: the hard-run counter and E move by R21 to R23, with the allowance of
R29 in RAMPING, and nothing else moves but the converter, which stands just past the
conversion (R6, R28; log entry 2). -/
def Obligations.SampleWithoutDetection : Prop :=
  ∀ (s : State) (k : District) (code : Code), s.mode ≠ .straps → s.NoStartOwed →
    (s.gate k = false → exec (.currentSample k code) s = .next (s.sampled k code)) ∧
    ∀ (c : StationConfig), s.config = some c →
      (s.record k).state = .live ∨ (s.record k).state = .ramping →
      (let l := 1000 + 500 * c.trip.val
       let i := 10 * code.toNat
       let leff := if (s.record k).state = .ramping then l + (l - l * (s.record k).k / 64) else l
       let hard := code.toNat = 1023 ∨ min (3 * l) 10000 ≤ i
       let run := if hard then (s.engine k).hardRun + 1 else 0
       let e := if leff < i then min ((s.engine k).excess + (i - leff)) (8 * l)
         else (s.engine k).excess - min (s.engine k).excess (l / 8)
       run < 2 → e ≠ 8 * l →
       ¬ ((s.record k).state = .live ∧ (s.record k).reversing = true ∧ (s.record k).watch ≠ .flip ∧
          8 * l / 4 ≤ e) →
       exec (.currentSample k code) s = .next ((s.sampled k code).setEngine k
         { excess := e, hardRun := run, probe := (s.engine k).probe }))

/-- A trip in LIVE: HARD in a non-reversing district or under the flip watch, and OVERLOAD in any.  n begins again
at 0, or goes up by 1 while the settle window or the flip watch runs; COOLING for tCOOL(n), or LOCKED at 8; one
TR (R42 to R45, R47, R58); a non-reversing district is pardoned when the last intent is 10 ms old or less, and else its
window after the trip opens (R87, R88; log entry 9 for the windows of the pardon). -/
def Obligations.TripInLive : Prop :=
  ∀ (s : State) (k : District) (code : Code) (c : StationConfig),
    s.mode ≠ .straps → s.config = some c → s.NoStartOwed → (s.record k).state = .live →
    (let l := 1000 + 500 * c.trip.val
     let i := 10 * code.toNat
     let d := s.record k
     let hard := code.toNat = 1023 ∨ min (3 * l) 10000 ≤ i
     let second := hard ∧ 2 ≤ (s.engine k).hardRun + 1
     let full := l < i ∧ 8 * l ≤ (s.engine k).excess + (i - l)
     second ∧ (d.reversing = false ∨ d.watch = .flip) ∨ ¬ second ∧ full →
     let fault := if second then FaultKind.hard else FaultKind.overload
     let n := if d.settle.isSome = true ∨ d.watch = .flip then min (d.n + 1) 8 else 0
     Completes (.currentSample k code) s (fun t =>
       State.onlyDistrict k (s.sampled k code) t ∧ State.rampKept s t ∧ t.engine k = ⟨0, 0, none⟩ ∧
       t.relay k = s.relay k ∧ t.gate k = false ∧
       t.queue = s.queueWith (s.frameFor .tr k (16 * fault.code + n)) ∧
       (n = 8 → t.alert = true ∧
         t.record k = { d with state := .locked, lastFault := fault, n := 8, settle := none, watch := .none,
                               watchLeft := 0, contend := none, pardonWindow := false, yielded := false,
                               probeFlipTried := false }) ∧
       (n < 8 → t.alert = s.alert ∧
         (let pardoned := d.reversing = false ∧ s.ramp.intentAge ≤ 10
          t.record k = { d with state := .cooling, lastFault := fault,
                                n := if pardoned then n - 1 else n,
                                cooling := if pardoned then 30000 else Config.tCOOL n,
                                pardoned := pardoned, settle := none, watch := .none, watchLeft := 0,
                                contend := none, yielded := false, probeFlipTried := false,
                                pardonWindow := d.reversing = false ∧ ¬ s.ramp.intentAge ≤ 10 }))))

/-- A ramp ended by a trip: INRUSH in any district, or HARD in a non-reversing one.  A counted failure with its TR
and no RE; the own entry is removed; INRUSH starts the hold-off of 50 ms (R25, R44, R45, R55, R56, R149, R152); the
TR is placed by R132 to R134.  A non-reversing district is pardoned when the last intent is 10 ms old or less (R87,
R88; log entry 9).  In QUIET the freed place may start the ramp of another district in the same step (R161). -/
def Obligations.TripInRamp : Prop :=
  ∀ (s : State) (k : District) (code : Code) (c : StationConfig),
    s.mode ≠ .straps → s.config = some c → (s.record k).state = .ramping → s.QueueOk →
    (let l := 1000 + 500 * c.trip.val
     let i := 10 * code.toNat
     let d := s.record k
     let leff := l + (l - l * d.k / 64)
     let hard := code.toNat = 1023 ∨ min (3 * l) 10000 ≤ i
     let second := hard ∧ 2 ≤ (s.engine k).hardRun + 1
     let full := leff < i ∧ 8 * l ≤ (s.engine k).excess + (i - leff)
     second ∧ d.reversing = false ∨ ¬ second ∧ full →
     let fault := if second then FaultKind.hard else FaultKind.inrush
     let n := min (d.n + 1) 8
     let pardoned := d.reversing = false ∧ s.ramp.intentAge ≤ 10 ∧ n < 8
     Completes (.currentSample k code) s (fun t =>
       State.sameOutsideDistricts (s.sampled k code) t ∧ (s.mode ≠ .quiet → State.othersKept k s t) ∧
       t.engine k = ⟨0, 0, none⟩ ∧ t.relay k = s.relay k ∧
       s.places (s.frameFor .tr k (16 * fault.code + n)) t ∧
       t.hasOwnEntry k = false ∧
       (∀ e ∈ s.ramp.list, ¬ (e.isOwn = true ∧ e.district = k) → e ∈ t.ramp.list) ∧
       t.ramp.holdoff = (if fault = .inrush then some 50 else s.ramp.holdoff) ∧
       t.ramp.floor = s.ramp.floor ∧ t.ramp.intentAge = s.ramp.intentAge ∧
       (t.record k).lastFault = fault ∧ (t.record k).n = (if pardoned then n - 1 else n) ∧
       (t.record k).state = (if n = 8 then .locked else .cooling) ∧
       (n < 8 → (t.record k).cooling = if pardoned then 30000 else Config.tCOOL n) ∧
       (t.record k).hold = d.hold ∧ (t.record k).reversing = d.reversing ∧
       t.alert = (s.alert || decide (n = 8))))

/-- A changeover cause: EARLY, or HARD with no flip watch, in a LIVE reversing district; HARD in a RAMPING one.
The district enters CONTEND, or in QUIET SWITCHING; no failure is counted and no fault written (R26, R41, R42,
R56, R71, R72). -/
def Obligations.ChangeoverCauseContends : Prop :=
  ∀ (s : State) (k : District) (code : Code) (c : StationConfig),
    s.mode ≠ .straps → s.config = some c → (s.record k).reversing = true →
    (let l := 1000 + 500 * c.trip.val
     let i := 10 * code.toNat
     let d := s.record k
     let live := d.state = .live
     let leff := if d.state = .ramping then l + (l - l * d.k / 64) else l
     let hard := code.toNat = 1023 ∨ min (3 * l) 10000 ≤ i
     let second := hard ∧ 2 ≤ (s.engine k).hardRun + 1
     let e := if leff < i then min ((s.engine k).excess + (i - leff)) (8 * l)
       else (s.engine k).excess - min (s.engine k).excess (l / 8)
     d.state = .ramping ∧ second ∨
       live ∧ d.watch ≠ .flip ∧ (second ∨ ¬ second ∧ 8 * l / 4 ≤ e ∧ e ≠ 8 * l) →
     Completes (.currentSample k code) s (fun t =>
       t.engine k = ⟨0, 0, none⟩ ∧ (t.record k).n = d.n ∧ (t.record k).lastFault = d.lastFault ∧
       (t.record k).hold = d.hold ∧ (t.record k).yielded = d.yielded ∧ (t.record k).settle = none ∧
       (t.record k).watch = .none ∧ (t.record k).origin = (if d.state = .live then .live else .ramp) ∧
       t.alert = s.alert ∧ t.halt = s.halt ∧ t.mode = s.mode ∧
       (s.mode ≠ .quiet →
         State.othersKept k s t ∧ (t.record k).state = .contend ∧ (t.record k).contend = some 10000 ∧
         t.relay k = s.relay k ∧
         t.queue = (if d.state = .ramping then
             { s with queue := s.queueWith (s.frameFor .re k 0) }.queueWith (s.frameFor .fi k 0)
           else s.queueWith (s.frameFor .fi k 0))) ∧
       (s.mode = .quiet →
         (t.record k).state = .switching ∧ (t.record k).contend = none ∧ (s.queue = [] → t.queue = []) ∧
         t.relay k = { s.relay k with pol := some (((s.relay k).pol.getD .low).invert), commanded := true,
                                      confirm := some 15000 })))

/-- CURRENT_SAMPLE in the pulse of a probe.  p1 is taken and not counted; p2 and p3 are added unless hard; a hard
sample among p2 to p4, or a mean at or above L, is SHORT: CONTEND with the flag set for a reversing district that
has not tried (SWITCHING in QUIET), else a counted failure PROBE; a mean below L is CLEAR: QUEUED with w 0, which
in QUIET may start its ramp in the same step (R32 to R34, R50, R51, R52, R72, R84, R161) and in RUN makes the unit
choose again: the QUEUED district with the largest w is the one offered with an RB, nibble 15 − u and DATA B, and
an RB held for another is replaced by it (R132, R155, R156; stated of a queue with room and of waits below WMAX). -/
def Obligations.ProbeSamples : Prop :=
  ∀ (s : State) (k : District) (code : Code) (c : StationConfig) (p : Probe),
    s.mode ≠ .straps → s.config = some c → s.NoStartOwed → (s.record k).state = .probing →
    (s.record k).phase = .pulse → (s.engine k).probe = some p → p.taken ≤ 3 →
    (let l := 1000 + 500 * c.trip.val
     let i := 10 * code.toNat
     let d := s.record k
     let hard := code.toNat = 1023 ∨ min (3 * l) 10000 ≤ i
     let short := 1 ≤ p.taken ∧ (hard ∨ p.taken = 3 ∧ l ≤ (p.sum + i) / 3)
     let clear := p.taken = 3 ∧ ¬ hard ∧ (p.sum + i) / 3 < l
     let n := min (d.n + 1) 8
     (p.taken = 0 → exec (.currentSample k code) s = .next ((s.sampled k code).setEngine k
       { s.engine k with probe := some { taken := 1, sum := p.sum } })) ∧
     (¬ hard → p.taken = 1 ∨ p.taken = 2 →
       exec (.currentSample k code) s = .next ((s.sampled k code).setEngine k
         { s.engine k with probe := some { taken := p.taken + 1, sum := p.sum + i } })) ∧
     (clear → Completes (.currentSample k code) s (fun t =>
       (t.record k).w = 0 ∧ (t.record k).probeFlipTried = false ∧
       ((t.record k).state = .queued ∨ s.mode = .quiet ∧ (t.record k).state = .ramping) ∧
       (t.record k).n = d.n ∧ (t.record k).lastFault = d.lastFault ∧
       (s.mode ≠ .quiet → State.othersKept k s t) ∧
       t.engine k = ⟨0, 0, none⟩ ∧ t.alert = s.alert ∧ t.halt = s.halt ∧
       (s.mode = .run → s.QueueOk → s.queue.length < 8 →
         ∀ j : District, t.waitsLongest j → (t.record j).w < 65535 →
           t.ramp.chosen = some j ∧ t.ramp.rbDistrict = some j ∧
           (s.ramp.rbDistrict = some j → t.queue = s.queue) ∧
           (s.ramp.rbDistrict ≠ some j → t.offersRamp j)))) ∧
     (short → d.reversing = true → d.probeFlipTried = false → Completes (.currentSample k code) s (fun t =>
       (t.record k).state = (if s.mode = .quiet then .switching else .contend) ∧
       (t.record k).origin = .probe ∧ (t.record k).probeFlipTried = true ∧
       (t.record k).n = d.n ∧ (t.record k).lastFault = d.lastFault ∧ t.engine k = ⟨0, 0, none⟩ ∧
       (s.mode ≠ .quiet → t.queue = s.queueWith (s.frameFor .fi k 0)) ∧ State.othersKept k s t ∧
       t.alert = s.alert)) ∧
     (short → d.reversing = false ∨ d.probeFlipTried = true → Completes (.currentSample k code) s (fun t =>
       (t.record k).state = (if n = 8 then .locked else .cooling) ∧ (t.record k).n = n ∧
       (t.record k).lastFault = .probe ∧ (n < 8 → (t.record k).cooling = Config.tCOOL n) ∧
       (t.record k).probeFlipTried = false ∧ t.engine k = ⟨0, 0, none⟩ ∧
       t.queue = s.queueWith (s.frameFor .tr k (64 + n)) ∧ State.othersKept k s t ∧
       t.alert = (s.alert || decide (n = 8)))))

/-- SUPPLY_SAMPLE moves the run counters by the class of the sample, whatever the flag (R3, R8). -/
def Obligations.SupplyCounters : Prop :=
  ∀ (s : State) (v : Code), s.mode ≠ .straps →
    Completes (.supplySample v) s (fun t =>
      (v.toNat < 360 → t.supply.lowRun = min (s.supply.lowRun + 1) 4 ∧ t.supply.highRun = 0) ∧
      (360 ≤ v.toNat → v.toNat < 400 → t.supply.lowRun = 0 ∧ t.supply.highRun = 0) ∧
      (400 ≤ v.toNat → t.supply.lowRun = 0 ∧ t.supply.highRun = min (s.supply.highRun + 1) 40))

/-- SUPPLY_SAMPLE: the fourth low sample with the flag set clears it and sets SUPPLY, which halts the districts of
a station not halted; the fortieth high one with the flag clear sets it and clears SUPPLY, which ends the halt
if no cause is left; any other sample moves no district (R9, R10, R165). -/
def Obligations.SupplyLostAndRestored : Prop :=
  ∀ (s : State) (v : Code), s.mode ≠ .straps → s.HaltOk →
    s.supply.lowRun < 4 ∨ s.supply.present = false → s.supply.highRun < 40 ∨ s.supply.present = true →
    Completes (.supplySample v) s (fun t =>
      (v.toNat < 360 → s.supply.lowRun = 3 → s.supply.present = true →
        t.supply.present = false ∧ t.halt = { s.halt with supply := true } ∧
        (s.halted = false → ∀ k : District, s.haltsDistrict t k) ∧
        (s.halted = true → t.districts = s.districts) ∧
        (∀ e ∈ s.ramp.list, e.isOwn = false → e ∈ t.ramp.list)) ∧
      (400 ≤ v.toNat → s.supply.highRun = 39 → s.supply.present = false →
        t.supply.present = true ∧ t.halt = { s.halt with supply := false } ∧
        (t.halted = false → ∀ k : District, s.leavesHalted t k) ∧
        (t.halted = true → t.districts = s.districts)) ∧
      (¬ (v.toNat < 360 ∧ s.supply.lowRun = 3 ∧ s.supply.present = true) →
        ¬ (400 ≤ v.toNat ∧ s.supply.highRun = 39 ∧ s.supply.present = false) →
        t = { s with vsenPin := v, converter := t.converter, supply := t.supply } ∧
        t.supply.present = s.supply.present))

/-! ### The panel, the relays and the qualifiers -/

/-- RAW_INPUT_CHANGE: a settled qualifier's timer starts from zero away from the debounced level and stops back at
it; an unsettled one's restarts (R11, R12); only that qualifier moves.  DEBOUNCE_EXPIRY of RESUME/ or RELEASE/
delivers no event at settlement or at a change to high (R12, R14): the debounced level takes the raw level, the
timer stops, and nothing else moves. -/
def Obligations.QualifierTimed : Prop :=
  ∀ (s : State) (pin : InputPin) (level : Level),
    (level ≠ (s.qualifier pin).raw → Completes (.rawInputChange pin level) s (fun t =>
      t.qualifier pin = { settled := (s.qualifier pin).settled, raw := level,
                          held := if (s.qualifier pin).settled = some level then none else some 0 } ∧
      t = s.setQualifier pin (t.qualifier pin))) ∧
    (pin = .resume ∨ pin = .release → (s.qualifier pin).held.isSome = true → s.NoStartOwed →
      ¬ ((s.qualifier pin).settled = some .high ∧ (s.qualifier pin).raw = .low) →
      exec (.debounceExpiry pin) s = .next (s.setQualifier pin
        { settled := some (s.qualifier pin).raw, held := none, raw := (s.qualifier pin).raw }))

/-- DEBOUNCE_EXPIRY of STOP/ at low, initial or not, in every mode: LINE_STOP is set, the ramp list is emptied, a
waiting RS is withdrawn, the break driver starts with break in progress set, a frame in flight is abandoned and
stays pending, in its last character too, which is then no completion and no frame heard (R111; log entry 32), and
a station that was not halted halts (R13, R110, R150, R173); that the abandoned frame stays is stated there of a queue
with room for the REs of cut ramps, and of a frame that the halt does not withdraw or replace (R57, R132, R137).
DEBOUNCE_EXPIRY of STOP/ at high: the driver releases the pin if tBDRIVE has run, the idle timer then at 0 (R94), and
goes on until then if it has not; LINE_STOP stays (R110, R173).  That the release keeps break in progress also where
the break was never detected is the model's DESIGN CHOICE (log entry 34). -/
def Obligations.StopPressHalts : Prop :=
  ∀ (s : State), (s.qualifier .stop).held.isSome = true →
    ((s.qualifier .stop).raw = .high → s.NoStartOwed →
      Completes (.debounceExpiry .stop) s (fun t =>
        (s.line.driver = .held → t.line.driver = .off ∧ t.line.idle = 0 ∧
          t.line.breakInProgress = s.line.breakInProgress ∧ t.line.tx = s.line.tx ∧ t.line.rx = s.line.rx) ∧
        (s.line.driver ≠ .held → t.line = s.line) ∧
        t = { s with stopQ := { settled := some .high, held := none, raw := .high }, line := t.line })) ∧
    ((s.qualifier .stop).raw = .low → Completes (.debounceExpiry .stop) s (fun t =>
      t.stopAsserted = true ∧ t.halt = { s.halt with lineStop := true } ∧ t.ramp.list = [] ∧
      t.ramp.floor = s.ramp.floor ∧ t.ramp.holdoff = s.ramp.holdoff ∧ t.ramp.intentAge = s.ramp.intentAge ∧
      t.line.driver = .minimum 0 ∧ t.line.breakInProgress = true ∧ t.line.tx = none ∧
      (∀ x : Sending, s.line.tx = some x → 3 ≤ x.char →
        t.line.rx.handing = none ∧ t.handler = { held := [], hunt := true }) ∧
      (s.halted = true → s.line.tx.isSome = true → ∀ e ∈ s.queue, e.frame.kind ≠ .rs →
        e.phase = .onLine .none → { e with phase := .waiting } ∈ t.queue) ∧
      (s.halted = false → s.line.tx.isSome = true → s.queue.length ≤ 4 → ∀ e ∈ s.queue, e.frame.kind ≠ .rs →
        (e.frame.kind = .fi → (s.record e.frame.loc.district).state ≠ .contend) →
        (e.frame.kind = .rb → (s.record e.frame.loc.district).state ≠ .queued) →
        (e.frame.kind = .re → e.frame = s.frameFor .re e.frame.loc.district 0) →
        e.phase = .onLine .none → { e with phase := .waiting } ∈ t.queue) ∧
      (∀ e ∈ t.queue, ¬ (e.frame.kind = .rs ∧ e.frame.loc.district = 0 ∧ e.phase = .waiting)) ∧
      (s.halted = false → ∀ k : District, (t.record k).state = .halted ∧ t.gate k = false ∧
        (t.record k).n = (s.record k).n ∧ (t.record k).lastFault = (s.record k).lastFault) ∧
      (s.halted = true → t.districts = s.districts) ∧ t.alert = s.alert ∧ t.mode = s.mode))

/-- DEBOUNCE_EXPIRY of RESUME/ from high to low: refused while a break is in progress or LINE_STOP is absent; else
LINE_STOP is cleared, the halt ends if no cause is left, and an RS is posted, which the queue takes in RUN alone
(R175).  Where the halt ends, the RS is stated of a queue with room for it and for what the districts post; where it
does not, the RS is placed by R132 to R134. -/
def Obligations.ResumePress : Prop :=
  ∀ (s : State), (s.qualifier .resume).held.isSome = true → (s.qualifier .resume).settled = some .high →
    (s.qualifier .resume).raw = .low → s.NoStartOwed →
    (let settled := s.setQualifier .resume { settled := some .low, held := none, raw := .low }
     (s.line.breakInProgress = true ∨ s.halt.lineStop = false →
       exec (.debounceExpiry .resume) s = .next settled) ∧
     (s.line.breakInProgress = false → s.halt.lineStop = true →
       Completes (.debounceExpiry .resume) s (fun t =>
         t.halt = { s.halt with lineStop := false } ∧
         (t.halted = false → ∀ k : District, s.leavesHalted t k) ∧
         (t.halted = false → s.mode = .run → s.queue.length ≤ 2 →
           ∃ e ∈ t.queue, e.frame = s.frameFor .rs 0 0) ∧
         (s.mode ≠ .run → s.queue = [] → t.queue = []) ∧
         (t.halted = true → t.districts = s.districts ∧ (s.QueueOk → s.places (s.frameFor .rs 0 0) t)) ∧
         t.mode = s.mode ∧ t.line = s.line)))

/-- DEBOUNCE_EXPIRY of RELEASE/ from high to low in RUN, QUIET, LISTEN and STRAP_FAULT: each district is released by
R59, and one neither LOCKED nor HALTED keeps its record (in QUIET a QUEUED one of which no direct start is owed,
R161); then the latch is cleared in RUN if no district is left LOCKED, and kept elsewhere (R60, R195). -/
def Obligations.ReleasePress : Prop :=
  ∀ (s : State), (s.qualifier .release).held.isSome = true → (s.qualifier .release).settled = some .high →
    (s.qualifier .release).raw = .low → s.mode ≠ .straps → s.mode ≠ .selfTest →
    Completes (.debounceExpiry .release) s (fun t =>
      (∀ k : District,
        let d := s.record k
        (d.state = .locked → d.hold = true → (t.record k).state = .dark ∧ (t.record k).n = 0) ∧
        (d.state = .locked → d.hold = false → s.relayDisagrees k = false →
          (t.record k).state = .probing ∧ (t.record k).phase = .wait ∧ (t.record k).n = 0) ∧
        (d.state = .locked → d.hold = false → s.relayDisagrees k = true →
          (t.record k).state = .locked ∧ (t.record k).lastFault = .relay ∧ (t.record k).n = 0) ∧
        (d.state = .halted → d.confirmPending = false → d.returnClass = .locked →
          t.record k = { d with n := 0, returnClass := if d.hold then .dark else .probe }) ∧
        (d.state = .halted → d.confirmPending = true ∨ d.returnClass ≠ .locked → t.record k = d) ∧
        (d.state ≠ .locked → d.state ≠ .halted → s.mode ≠ .quiet ∨ d.state ≠ .queued ∨ s.NoStartOwed →
          t.record k = d)) ∧
      (s.mode = .run → (∃ k : District, (t.record k).state = .locked) → t.alert = true ∨ t.alert = s.alert) ∧
      (s.mode = .run → (∀ k : District, (t.record k).state ≠ .locked) → t.alert = false) ∧
      (s.mode ≠ .run → s.alert = true → t.alert = true) ∧ t.mode = s.mode ∧ t.halt = s.halt)

/-- DEBOUNCE_EXPIRY of CNFk: a non-reversing district disregards the level; the first level of a reversing district
whose POL is not driven is adopted and is no command; a level equal to POL outside a changeover changes nothing
but the reading, and so does a level that differs from POL while the district is SWITCHING: no confirm and no fault
(R15, R69, R70, R79, R85). -/
def Obligations.RelayLevelAdopted : Prop :=
  ∀ (s : State) (k : District), (s.qualifier (.cnf k)).held.isSome = true → s.NoStartOwed →
    (let level := (s.qualifier (.cnf k)).raw
     let settled := s.setQualifier (.cnf k) { settled := some level, held := none, raw := level }
     ((s.record k).reversing = false → exec (.debounceExpiry (.cnf k)) s = .next settled) ∧
     ((s.record k).reversing = true → (s.relay k).pol = none →
       exec (.debounceExpiry (.cnf k)) s = .next (settled.setRelay k
         { s.relay k with cnf := some level, pol := some level })) ∧
     ((s.record k).reversing = true → (s.relay k).pol = some level → (s.record k).state ≠ .switching →
       ¬ ((s.record k).state = .halted ∧ (s.record k).confirmPending = true) →
       exec (.debounceExpiry (.cnf k)) s = .next (settled.setRelay k { s.relay k with cnf := some level })) ∧
     ((s.record k).reversing = true → (s.relay k).pol = some level.invert → (s.record k).state = .switching →
       exec (.debounceExpiry (.cnf k)) s = .next (settled.setRelay k { s.relay k with cnf := some level })))

/-- DEBOUNCE_EXPIRY of CNFk at the level of POLk in SWITCHING: the confirm.  The flip is counted; under a hold the
district goes to DARK with n 0; at NCHATTER flips it is a counted failure CHATTER; else it leaves by its origin
with yielded clear (R62, R79, R80, R82).  In a HALTED confirm-pending district: the flip is counted and not judged,
yielded is cleared and n kept (log entry 10), and the return class is QUEUE, or DARK under a hold; a district of a
station that is not halted leaves at once (R86, R168, R171). -/
def Obligations.RelayConfirms : Prop :=
  ∀ (s : State) (k : District), (s.qualifier (.cnf k)).held.isSome = true →
    (s.record k).reversing = true → (s.relay k).pol = some (s.qualifier (.cnf k)).raw → s.NoStartOwed →
    (let d := s.record k
     let flips := min ((s.relay k).flipCount + 1) 5
     let window := if (s.relay k).chatter.isNone then some 1000000 else (s.relay k).chatter
     let n := min (d.n + 1) 8
     (d.state = .halted → d.confirmPending = true → Completes (.debounceExpiry (.cnf k)) s (fun t =>
       let cls := if d.hold then ReturnClass.dark else ReturnClass.queue
       t.relay k = { s.relay k with cnf := (s.relay k).pol, confirm := none, flipCount := flips,
                                    chatter := window } ∧
       (t.record k).confirmPending = false ∧ (t.record k).returnClass = cls ∧ (t.record k).yielded = false ∧
       (t.record k).n = d.n ∧ (t.record k).hold = d.hold ∧ (t.record k).lastFault = d.lastFault ∧
       t.alert = s.alert ∧ t.halt = s.halt ∧ (s.mode ≠ .quiet → State.othersKept k s t) ∧
       (s.halted = true → t.queue = s.queue ∧
         t.record k = { d with confirmPending := false, returnClass := cls, yielded := false }) ∧
       (s.halted = false → d.hold = true → (t.record k).state = .dark) ∧
       (s.halted = false → d.hold = false → (t.record k).w = 0 ∧
         ((t.record k).state = .queued ∨ s.mode = .quiet ∧ (t.record k).state = .ramping)))) ∧
     (d.state = .switching → Completes (.debounceExpiry (.cnf k)) s (fun t =>
       (t.relay k).confirm = none ∧ (t.relay k).pol = (s.relay k).pol ∧
       (t.relay k).cnf = (s.relay k).pol ∧
       (d.hold = true → (t.record k).state = .dark ∧ (t.record k).n = 0 ∧ (t.record k).hold = true ∧
         (t.record k).yielded = false ∧ (t.relay k).flipCount = flips ∧ (t.relay k).chatter = window) ∧
       (d.hold = false → flips = 5 →
         (t.record k).state = (if n = 8 then .locked else .cooling) ∧ (t.record k).n = n ∧
         (t.record k).lastFault = .chatter ∧ (t.relay k).flipCount = 0 ∧ (t.relay k).chatter = none ∧
         t.queue = s.queueWith (s.frameFor .tr k (80 + n))) ∧
       (d.hold = false → flips < 5 →
         (t.record k).n = d.n ∧ (t.record k).lastFault = d.lastFault ∧ (t.record k).yielded = false ∧
         (t.relay k).flipCount = flips ∧ (t.relay k).chatter = window ∧
         (d.origin = .live → (t.record k).state = .live ∧ (t.record k).watch = .flip ∧
           (t.record k).watchLeft = 20000 ∧ (t.record k).settle = none ∧ t.gate k = true ∧
           t.engine k = ⟨0, 0, none⟩) ∧
         (d.origin = .ramp → (t.record k).w = 0 ∧
           ((t.record k).state = .queued ∨ s.mode = .quiet ∧ (t.record k).state = .ramping)) ∧
         (d.origin = .probe → (t.record k).state = .probing ∧ (t.record k).phase = .wait ∧
           (t.record k).probeFlipTried = d.probeFlipTried)))))

/-- DEBOUNCE_EXPIRY of CNFk at a level that differs from POLk outside a changeover: a RELAY fault, by the state of
the district (R85, R58).  A district that goes to LOCKED posts its TR with RELAY and n (R45), after its FI or RB is
withdrawn (R137). -/
def Obligations.UncommandedRelayFaults : Prop :=
  ∀ (s : State) (k : District), (s.qualifier (.cnf k)).held.isSome = true →
    (s.record k).reversing = true → (s.relay k).pol = some ((s.qualifier (.cnf k)).raw.invert) →
    (s.record k).state ≠ .switching → s.QueueOk →
    (let d := s.record k
     let tr := s.frameFor .tr k (96 + d.n)
     Completes (.debounceExpiry (.cnf k)) s (fun t =>
       t.relay k = { s.relay k with cnf := some (s.qualifier (.cnf k)).raw } ∧
       (s.mode ≠ .quiet → State.othersKept k s t) ∧
       (d.state ≠ .halted → d.state ≠ .locked →
         (t.record k).state = .locked ∧ (t.record k).lastFault = .relay ∧ (t.record k).n = d.n ∧
         (t.record k).hold = d.hold ∧ t.alert = true ∧ t.gate k = false ∧ t.engine k = ⟨0, 0, none⟩ ∧
         (d.state = .ramping → t.hasOwnEntry k = false) ∧
         (d.state ≠ .contend → d.state ≠ .queued → s.places tr t) ∧
         (d.state = .contend ∨ d.state = .queued → s.mode = .run → s.queue.length < 8 →
           ∃ e ∈ t.queue, e.frame = tr) ∧
         (d.state = .queued → ∀ x ∈ t.queue, x.frame.kind = .rb → x.frame.loc.district = k →
           x.phase = .onLine .withdrawn) ∧
         (d.state = .contend → ∀ x ∈ t.queue, x.frame.kind = .fi → x.frame.loc.district = k →
           x.phase = .onLine .withdrawn)) ∧
       (d.state = .halted → d.confirmPending = false →
         t.record k = { d with returnClass := .locked, lastFault := .relay } ∧ t.alert = s.alert ∧
         t.queue = s.queue) ∧
       (d.state = .halted → d.confirmPending = true → t.record k = d ∧ t.queue = s.queue) ∧
       (d.state = .locked → t.record k = { d with lastFault := .relay } ∧ t.queue = s.queue ∧
         t.alert = s.alert)))

/-- BREAK_DRIVE_MINIMUM_END: the driver releases the pin unless STOP/ is still asserted (R110); at the release the
idle timer is at 0 (R94); that the release keeps break in progress also where the break was never detected is the
model's DESIGN CHOICE (log entry 34).  BREAK_END: break in progress is cleared unless the driver still drives, and LINE_STOP
stays (R109); the dominant timer is at 0 (R108).  That BREAK_END leaves this timer as it was where the station itself
still pulls the line is the model's DESIGN CHOICE (log entry 2). -/
def Obligations.BreakDriverAndBreakEnd : Prop :=
  ∀ (s : State),
    (∀ ran : Nat, s.line.driver = .minimum ran → Completes .breakDriveMinimumEnd s (fun t =>
      (s.stopAsserted = true → t.line.driver = .held) ∧
      (s.stopAsserted = false → t.line.driver = .off ∧ t.line.idle = 0) ∧
      t.line.breakInProgress = s.line.breakInProgress ∧ t = { s with line := t.line })) ∧
    Completes .breakEnd s (fun t =>
      (s.line.driver = .off → t.line.breakInProgress = false) ∧
      (s.line.driver ≠ .off → t.line.breakInProgress = s.line.breakInProgress) ∧
      t.line.dominant = (if s.selfPulls then s.line.dominant else 0) ∧ t = { s with line := t.line })

/-! ### The ends of timers -/

/-- COOLING_EXPIRY: PROBING in phase WAIT with the gate off, or LOCKED with RELAY where the relay disagrees; n, the
pardoned flag and the hold are kept (R48, R49, R85).  PROBE_PULSE_START: the phase becomes PULSE, the gate goes on and
a probe begins with no samples and a sum of 0 (R32, R49); the scan stands at its start (log entry 2). -/
def Obligations.ProbingBegins : Prop :=
  ∀ (s : State) (k : District),
    ((s.record k).state = .cooling → s.relayDisagrees k = false → Completes (.coolingExpiry k) s (fun t =>
      State.districtAlone k s t ∧ t.relay k = s.relay k ∧ t.engine k = ⟨0, 0, none⟩ ∧ t.gate k = false ∧
      t.record k = { s.record k with state := .probing, phase := .wait, cooling := 0, settle := none,
                                     watch := .none, watchLeft := 0, contend := none,
                                     pardonWindow := false })) ∧
    ((s.record k).state = .cooling → s.relayDisagrees k = true → Completes (.coolingExpiry k) s (fun t =>
      State.onlyDistrict k s t ∧ (t.record k).state = .locked ∧ (t.record k).lastFault = .relay ∧
      (t.record k).n = (s.record k).n ∧ t.alert = true ∧ t.gate k = false ∧
      t.queue = s.queueWith (s.frameFor .tr k (96 + (s.record k).n)) ∧ State.rampKept s t)) ∧
    ((s.record k).state = .probing → (s.record k).phase = .wait →
      Completes (.probePulseStart k) s (fun t =>
        t.gate k = true ∧ t.record k = { s.record k with phase := .pulse } ∧
        t.engine k = ⟨0, 0, some { taken := 0, sum := 0 }⟩ ∧ t.relay k = s.relay k ∧
        State.othersKept k s t ∧
        t = { s with districts := t.districts, engines := t.engines, converter := t.converter } ∧
        (∀ x y : Nat, s.converter = .scan x y → t.converter = .scan 0 0)))

/-- The windows of a district end: the settle window in LIVE gives n = 0 and keeps the last fault (R46); the flip
watch and the yield watch become none, the yield watch clearing yielded (R82, R83); the chatter window returns
the flip count to 0 (R79); the window of a pardon closes, and by the part's own time it does so when more than 10 ms
of the cooling have run, in whole ms (R87, R88; log entry 9).  Nothing else moves. -/
def Obligations.WindowsEnd : Prop :=
  ∀ (s : State) (k : District),
    ((s.record k).state = .live → (s.record k).settle.isSome = true →
      exec (.settleWindowExpiry k) s = .next (s.setRecord k { s.record k with n := 0, settle := none })) ∧
    ((s.record k).state = .live → (s.record k).watch = .flip →
      exec (.flipWatchEnd k) s = .next (s.setRecord k { s.record k with watch := .none, watchLeft := 0 })) ∧
    ((s.record k).state = .live → (s.record k).watch = .yield →
      exec (.yieldWatchEnd k) s = .next
        (s.setRecord k { s.record k with watch := .none, watchLeft := 0, yielded := false })) ∧
    ((s.relay k).chatter.isSome = true →
      exec (.chatterWindowExpiry k) s = .next
        (s.setRelay k { s.relay k with flipCount := 0, chatter := none })) ∧
    ((s.record k).state = .cooling →
      exec (.pardonWindowEnd k) s = .next (s.setRecord k { s.record k with pardonWindow := false }) ∧
      (Instr.pardonWindowEnd k ∈ s.dueDistrict k ↔ (s.record k).pardonWindow = true ∧
        10 < Config.tCOOL (s.record k).n / 1000 - ((s.record k).cooling + 999) / 1000))

/-- RAMP_K_ADVANCE below 63 adds 1 to k and moves nothing else; at 63 it is the completion (log entry 13);
RAMP_COMPLETION enters LIVE with the gate on, E and the hard-run counter kept, the settle window of 10 s started,
yielded clear, the own entry removed and an RE posted, placed by R132 to R134 (R28, R29, R46, R54, R57, R83,
R149). -/
def Obligations.RampAdvancesAndCompletes : Prop :=
  ∀ (s : State) (k : District), (s.record k).state = .ramping → s.QueueOk →
    ((s.record k).k < 63 → exec (.rampKAdvance k) s = .next
      (s.setRecord k { s.record k with k := (s.record k).k + 1, rampSub := 0 })) ∧
    ((s.record k).k = 63 → exec (.rampKAdvance k) s = exec (.rampCompletion k) s) ∧
    Completes (.rampCompletion k) s (fun t =>
      State.sameOutsideDistricts s t ∧ (s.mode ≠ .quiet → State.othersKept k s t) ∧ t.gate k = true ∧
      t.engine k = s.engine k ∧ t.relay k = s.relay k ∧
      t.record k = { s.record k with state := .live, k := 64, rampSub := 0, settle := some 10000000,
                                     watch := .none, watchLeft := 0, contend := none,
                                     pardonWindow := false, yielded := false } ∧
      t.hasOwnEntry k = false ∧ s.places (s.frameFor .re k 0) t ∧ t.alert = s.alert)

/-- CONTEND_TIMEOUT: the FI is withdrawn and the district enters SWITCHING: POL inverted (an undriven one counts as
low), commanded set, the confirm timer at 15 ms, the gate off (R70, R76, R78).  CONFIRM_TIMEOUT: in SWITCHING the
district locks with RELAY, n and the hold kept, a TR posted, the latch set (R62, R81); confirm-pending, the return
class becomes LOCKED with RELAY and no TR, and a station not halted lets it into LOCKED (R168, R171). -/
def Obligations.ChangeoverLimitsRunOut : Prop :=
  ∀ (s : State) (k : District),
    ((s.record k).state = .contend →
      Completes (.contendTimeout k) s (fun t =>
        State.onlyDistrict k s t ∧ t.ramp = s.ramp ∧ t.alert = s.alert ∧ t.gate k = false ∧
        t.record k = { s.record k with state := .switching, settle := none, watch := .none, watchLeft := 0,
                                       contend := none, pardonWindow := false } ∧
        t.relay k = { s.relay k with pol := some (if (s.relay k).pol = some .high then .low else .high),
                                     commanded := true, confirm := some 15000 } ∧
        (∀ e ∈ t.queue, e.frame.kind = .fi → e.frame.loc.district = k → e.phase = .onLine .withdrawn) ∧
        (∀ e ∈ s.queue, ¬ (e.frame.kind = .fi ∧ e.frame.loc.district = k) → e ∈ t.queue))) ∧
    ((s.record k).state = .switching → Completes (.confirmTimeout k) s (fun t =>
      State.onlyDistrict k s t ∧ (t.record k).state = .locked ∧ (t.record k).lastFault = .relay ∧
      (t.record k).n = (s.record k).n ∧ (t.record k).hold = (s.record k).hold ∧ t.alert = true ∧
      t.relay k = { s.relay k with confirm := none } ∧
      t.queue = s.queueWith (s.frameFor .tr k (96 + (s.record k).n)) ∧ State.rampKept s t)) ∧
    ((s.record k).state = .halted → (s.record k).confirmPending = true →
      Completes (.confirmTimeout k) s (fun t =>
        State.onlyDistrict k s t ∧ (t.record k).confirmPending = false ∧
        (t.record k).returnClass = .locked ∧ (t.record k).lastFault = .relay ∧
        (t.record k).n = (s.record k).n ∧ t.alert = true ∧ t.queue = s.queue ∧ t.ramp = s.ramp ∧
        (t.record k).state = (if s.halted then .halted else .locked)))

/-- MILLISECOND_TICK: every peer life, F's life and the hold-off lose 1 ms, the last-intent age gains 1 ms up to 255,
each QUEUED district's w gains 1 ms up to WMAX, and nothing else moves (R52, R142).  The ends of the unit's timers
outside QUIET: a peer entry is removed and no other entry, F becomes absent, the hold-off becomes idle (R148, R151,
R152). -/
def Obligations.MillisecondClock : Prop :=
  ∀ (s : State) (station : StationNumber) (k : District),
    Completes .millisecondTick s (fun t =>
      (∀ j : District, t.record j =
        if (s.record j).state = .queued then { s.record j with w := min ((s.record j).w + 1) 65535 }
        else s.record j) ∧
      t.ramp.list.map (fun e => (e.station, e.district, e.life)) =
        s.ramp.list.map (fun e => (e.station, e.district, e.life.map (· - 1))) ∧
      t.ramp.floor.map (fun f => (f.value, f.life)) =
        s.ramp.floor.map (fun f => (f.value, f.life - 1)) ∧
      t.ramp.holdoff = s.ramp.holdoff.map (· - 1) ∧ t.ramp.intentAge = min (s.ramp.intentAge + 1) 255 ∧
      t.ramp.rbDistrict = s.ramp.rbDistrict ∧ t.ramp.chosen = s.ramp.chosen ∧
      t = { s with districts := t.districts, ramp := t.ramp, msLeft := 1000 }) ∧
    (s.mode ≠ .quiet →
      Completes (.peerEntryExpiry station k) s (fun t =>
        t = { s with ramp := { s.ramp with list := t.ramp.list } } ∧
        ∀ e ∈ s.ramp.list, (e ∈ t.ramp.list ↔
          ¬ (e.isOwn = false ∧ e.station = station ∧ e.district = k))) ∧
      exec .floorExpiry s = .next { s with ramp := { s.ramp with floor := none } } ∧
      exec .holdoffEnd s = .next { s with ramp := { s.ramp with holdoff := none } })

/-- The direct start of QUIET at the end of the hold-off: with the count below Beff, the station not halted, a
district QUEUED and none RAMPING, the QUEUED district with the largest w, the lower number among equals, enters
RAMPING with k 0, its gate on and its own entry added; nothing is posted (R53, R149, R161; log entry 16 for equal
waits at WMAX). -/
def Obligations.QuietStartsDirectly : Prop :=
  ∀ (s : State) (k : District), s.mode = .quiet → s.halted = false →
    s.ramp.list.length < s.budgetInForce → (∀ j : District, (s.record j).state ≠ .ramping) →
    (s.record k).state = .queued →
    (∀ j : District, (s.record j).state = .queued →
      (s.record j).w < (s.record k).w ∨ (s.record j).w = (s.record k).w ∧ k ≤ j) →
    s.queue = [] →
    Completes .holdoffEnd s (fun t =>
      (t.record k).state = .ramping ∧ (t.record k).k = 0 ∧ (t.record k).n = (s.record k).n ∧
      t.gate k = true ∧ t.engine k = ⟨0, 0, none⟩ ∧ State.othersKept k s t ∧
      t.ramp.list = s.ramp.list ++ [{ station := s.stationId, district := k, kind := .own }] ∧
      t.ramp.holdoff = none ∧ t.queue = [] ∧ State.sameOutsideDistricts s t)

/-- LAMP_PHASE_ADVANCE moves the phase by 1, from 15 to 0, and nothing else but its own timer (R197).  The lamp of a
district goes by its state and the lamp phase (R198), and its gate by its state (R40). -/
def Obligations.LampsAndGates : Prop :=
  ∀ (s : State) (k : District), s.lampPhase ≤ 15 →
    exec .lampPhaseAdvance s = .next { s with
      lampPhase := if s.lampPhase = 15 then 0 else s.lampPhase + 1, lampLeft := 62500 } ∧
    (let st := (s.record k).state
     let p := s.lampPhase
     (st = .live → s.lamp k = true) ∧
     (st = .ramping ∨ st = .probing ∨ st = .contend ∨ st = .switching → (s.lamp k = true ↔ p % 2 = 0)) ∧
     (st = .cooling ∨ st = .queued → (s.lamp k = true ↔ p ≤ 3 ∨ 8 ≤ p ∧ p ≤ 11)) ∧
     (st = .locked → (s.lamp k = true ↔ p = 0 ∨ p = 2)) ∧
     (st = .dark ∨ st = .halted → s.lamp k = false) ∧
     (s.gate k = true ↔ st = .live ∨ st = .ramping ∨ st = .probing ∧ (s.record k).phase = .pulse))

/-! ### The peer line -/

/-- CHARACTER_ERROR with a character of status PARITY or FRAMING, where characters are assembled: what is held is
discarded, position 0, hunt set, whatever stood before; nothing outside the line moves (R99). -/
def Obligations.CharacterErrorHunts : Prop :=
  ∀ (s : State) (raw : RawChar), Instr.wf (.characterError raw) = true → s.mode ≠ .straps →
    s.mode ≠ .selfTest →
    Completes (.characterError raw) s (fun t =>
      t.handler = { held := [], hunt := true } ∧ State.onlyLine s t)

/-- SHORT_ERROR, and a clean mark-1 character anywhere: it is taken as HEAD, position 1, hunt clear, and what was
held is gone (R98, R100).  A clean mark-0 character is ignored in hunt and at position 0, and taken at position
1 or 2; at position 3 it completes the frame (R98, R114, R115).  That it then does what the command of a peer frame
with the same fields does, here HD_FRAME, unless the station is sending, and that SHORT_ERROR at position 0 or in
hunt is a clean mark-1 character, is the model's DESIGN CHOICE (log entry 20). -/
def Obligations.CleanCharacterTaken : Prop :=
  ∀ (s : State) (data : Byte) (b : FrameBody), s.mode ≠ .straps → s.mode ≠ .selfTest →
    Completes (.shortError data) s (fun t =>
      t.handler = { held := [data], hunt := false } ∧ State.onlyLine s t) ∧
    Completes (.cleanCharacter data true) s (fun t =>
      t.handler = { held := [data], hunt := false } ∧ State.onlyLine s t) ∧
    (s.handler.hunt = true ∨ s.handler.held = [] →
      Completes (.cleanCharacter data false) s (fun t => t.handler = s.handler ∧ State.onlyLine s t)) ∧
    (s.handler.hunt = false → s.handler.held.length = 1 ∨ s.handler.held.length = 2 →
      Completes (.cleanCharacter data false) s (fun t =>
        t.handler = { held := s.handler.held ++ [data], hunt := false } ∧ State.onlyLine s t)) ∧
    (s.handler.hunt = false → s.line.tx = none →
      s.handler.held = [BitVec.ofNat 8 (16 * 5 + b.prio.val), BitVec.ofNat 8 b.sender.val,
        BitVec.ofNat 8 (16 * b.loc.group.val + 4 * b.loc.district.val + 2 * b.loc.all.toNat +
          b.loc.set.toNat)] →
      exec (.cleanCharacter b.data false) s = exec (.hdFrame b) s)

/-- IDLE_GAP: the idle timer stands at NIDLE, the receiver leaves AWAIT_IDLE, a frame held at position 1 to 3 is a
GAP error, and position 0 is none (R94, R97, R101).  The transmitter makes its self-start attempt: in RUN, when it is
IDLE with no break in progress and the break driver off, the head is offered, or the entry behind an RB that is not
eligible; outside these conditions nothing begins and no entry moves (R103, R135).  On a line that the station itself
pulls no idle gap can arise, and nothing changes (log entry 3). -/
def Obligations.IdleGapEndsAssembly : Prop :=
  ∀ (s : State), (s.selfPulls = true → exec .idleGap s = .next s) ∧
   (s.selfPulls = false → Completes .idleGap s (fun t =>
    t.line.idle = 11 ∧
    (s.line.rx.phase = .awaitIdle → t.line.rx.phase = .ready) ∧
    (s.line.rx.phase ≠ .awaitIdle → t.line.rx.phase = s.line.rx.phase) ∧
    (s.handler.held ≠ [] → t.handler = { held := [], hunt := true }) ∧
    (s.handler.held = [] → t.handler = s.handler) ∧
    (s.mode ≠ .run ∨ s.line.tx.isSome = true ∨ t.line.breakInProgress = true ∨ s.line.driver ≠ .off ∨
        s.queue = [] → t.line.tx = s.line.tx ∧ t.queue = s.queue) ∧
    (s.mode = .run → s.line.tx = none → t.line.breakInProgress = false → s.line.driver = .off → s.QueueOk →
      ∀ (e : Entry) (rest : List Entry), s.queue = e :: rest →
      (let head := s.refreshedEntry e
       (e.frame.kind ≠ .rb ∨ s.eligible = true →
         t.line.tx = (s.begins head.frame).tx ∧
         t.queue = { head with phase := .onLine .none } :: rest.map s.refreshedEntry) ∧
       (e.frame.kind = .rb → s.eligible = false → rest = [] → t.line.tx = none ∧ t.queue = [head]) ∧
       (e.frame.kind = .rb → s.eligible = false → ∀ (x : Entry) (more : List Entry), rest = x :: more →
         t.line.tx = (s.begins x.frame).tx ∧
         t.queue = head :: { x with phase := .onLine .none } :: more))) ∧
    t = { s with line := t.line, handler := t.handler, queue := t.queue }))

/-- A contention attempt at an idle boundary: in RUN, with the transmitter IDLE, no break in progress, the break
driver off and the line idle, the head is offered, or the entry behind an RB that is not eligible; the transmitter
takes its copy with ID as sender and the entry is ON_LINE; an RB's nibble is set anew at the offer, wherever it
stands.  Without an offer the attempt passes; outside these conditions none is made and no entry moves (R103, R130,
R135; log entry 22 for the bit clock, whose next boundary is 16 µs on). -/
def Obligations.AttemptOffersHead : Prop :=
  ∀ (s : State),
    (s.mode ≠ .run ∨ s.line.tx.isSome = true ∨ s.line.breakInProgress = true ∨ s.line.driver ≠ .off ∨
        s.line.idle ≠ 11 ∨ s.queue = [] →
      exec .idleBoundaryAttempt s = .next { s with line := { s.line with bitLeft := 16 } }) ∧
    (s.line.idle = 11 → s.QueueOk → s.line.tx = none → s.line.breakInProgress = false →
      s.line.driver = .off → s.mode = .run → ∀ (e : Entry) (rest : List Entry), s.queue = e :: rest →
      (let head := s.refreshedEntry e
       (e.frame.kind ≠ .rb ∨ s.eligible = true →
         exec .idleBoundaryAttempt s = .next { s with
           line := s.begins head.frame,
           queue := { head with phase := .onLine .none } :: rest.map s.refreshedEntry }) ∧
       (e.frame.kind = .rb → s.eligible = false → rest = [] →
         exec .idleBoundaryAttempt s = .next { s with
           line := { s.line with bitLeft := 16 }, queue := [head] }) ∧
       (e.frame.kind = .rb → s.eligible = false → ∀ (x : Entry) (more : List Entry), rest = x :: more →
         exec .idleBoundaryAttempt s = .next { s with
           line := s.begins x.frame, queue := head :: { x with phase := .onLine .none } :: more })))

/-- JOIN below NJOIN, in hunt, or inside a frame makes no attempt; at NJOIN or more, at position 0 with hunt clear,
it makes one (R103).  In both cases the edge restarts the idle timer (R94).  The operand is the idle timer's reading
(log entry 12). -/
def Obligations.JoinNeedsThreshold : Prop :=
  ∀ (s : State) (idle : Fin 12),
    (idle.val < 10 ∨ s.handler.hunt = true ∨ s.handler.held ≠ [] →
      exec (.join idle) s = exec (.lineFallingEdge idle) s) ∧
    (10 ≤ idle.val → s.handler.hunt = false → s.handler.held = [] → s.mode = .run → s.line.tx = none →
      s.line.breakInProgress = false → s.line.driver = .off →
      ∀ e : Entry, s.queue = [e] → e.frame.kind ≠ .rb →
        Completes (.join idle) s (fun t =>
          t.line.tx = some { frame := { post := e.frame, sender := s.stationId }, char := 0, t := 0 } ∧
          t.queue = [{ e with phase := .onLine .none }] ∧ t.line.idle = 0 ∧
          t = { s with line := t.line, queue := t.queue }))

/-- ARBITRATION_LOSS: the line reads dominant, with the idle timer at 0 (R94); the transmitter returns to IDLE and the
ON_LINE entry is settled: removed if withdrawn, else WAITING with its marks clear; every other entry stays (R105,
R136). -/
def Obligations.ArbitrationLossSettles : Prop :=
  ∀ (s : State), s.mode = .run → s.line.tx.isSome = true →
    Completes .arbitrationLoss s (fun t =>
      t.line.tx = none ∧ t.lineLevel = .low ∧ t.line.idle = 0 ∧
      (∀ e ∈ s.queue, e.phase = .waiting → e ∈ t.queue) ∧
      (∀ e ∈ s.queue, e.phase = .onLine .none ∨ e.phase = .onLine .changed →
        { e with phase := .waiting } ∈ t.queue) ∧
      (∀ e ∈ t.queue, e.phase = .waiting ∧ ∃ x ∈ s.queue, x.frame = e.frame ∧ x.phase ≠ .onLine .withdrawn) ∧
      t = { s with line := t.line, queue := t.queue })

/-- DRIVER_FAULT in a frame: the transmitter releases the pin, which reads recessive with the dominant timer at 0
(R108), and returns to IDLE, and the station enters QUIET, which empties the queue, leaves no RB district and sets
the latch (R106, R140, R162, R189).  A RAMPING district goes on (R162). -/
def Obligations.DriverFaultEntersQuiet : Prop :=
  ∀ (s : State), s.mode = .run → s.line.tx.isSome = true → s.halt.start = false →
    Completes .driverFault s (fun t =>
      t.mode = .quiet ∧ t.line.tx = none ∧ t.queue = [] ∧ t.ramp.rbDistrict = none ∧ t.alert = true ∧
      (s.line.driver = .off → t.lineLevel = .high ∧ t.line.dominant = 0) ∧
      t.halt = s.halt ∧ t.config = s.config ∧ t.relays = s.relays ∧
      (∀ e ∈ s.ramp.list, e ∈ t.ramp.list) ∧ t.ramp.floor = s.ramp.floor ∧
      t.ramp.holdoff = s.ramp.holdoff ∧ t.ramp.intentAge = s.ramp.intentAge ∧
      ∀ k : District, (s.record k).state ≠ .queued → t.record k = s.record k)

/-- BREAK_DETECTED, in every mode: the line reads dominant, break in progress, a frame in flight abandoned, the
receiver in AWAIT_IDLE, the assembly in hunt at position 0, LINE_STOP set, the ramp list emptied, and the districts of
a station not halted HALTED (R97, R102, R108, R150, R172). -/
def Obligations.BreakStopsStation : Prop :=
  ∀ (s : State), Completes .breakDetected s (fun t =>
    t.lineLevel = .low ∧ t.line.was = .low ∧ t.line.dominant = 2000 ∧
    t.line.breakInProgress = true ∧ t.line.tx = none ∧ t.line.rx.phase = .awaitIdle ∧
    t.line.rx.slots = [] ∧ t.line.idle = 0 ∧ t.handler = { held := [], hunt := true } ∧
    t.halt = { s.halt with lineStop := true } ∧ t.ramp.list = [] ∧
    t.ramp.floor = s.ramp.floor ∧ t.ramp.holdoff = s.ramp.holdoff ∧ t.ramp.intentAge = s.ramp.intentAge ∧
    (∀ e ∈ t.queue, ¬ (e.frame.kind = .rs ∧ e.frame.loc.district = 0 ∧ e.phase = .waiting)) ∧
    (s.halted = false → ∀ k : District, (t.record k).state = .halted ∧ t.gate k = false ∧
      (t.record k).n = (s.record k).n ∧ (t.record k).lastFault = (s.record k).lastFault ∧
      ((s.record k).state ≠ .halted →
        ((t.record k).confirmPending = true ↔ (s.record k).state = .switching))) ∧
    (s.halted = true → t.districts = s.districts) ∧ t.alert = s.alert ∧ t.mode = s.mode)

/-- LINE_FALLING_EDGE: the idle timer returns to 0 (R94) and a dominant run begins, unless the station itself has held
the line dominant (R108; log entry 2); in READY a check is
scheduled 8 µs on, and in AWAIT_IDLE at NJOIN or more the receiver is READY with the same check (R95, R97).
START_RECHECK: dominant begins a character with its start slot sampled, the idle timer at 0, and recessive was a
glitch and the receiver stays READY (R94, R95).  The edge's operand is the idle timer's reading (log entry 12). -/
def Obligations.EdgeAndRecheck : Prop :=
  ∀ (s : State) (idle : Fin 12) (level : Level), s.mode ≠ .selfTest →
    Completes (.lineFallingEdge idle) s (fun t =>
      t.line.idle = 0 ∧
      (s.selfPulls = false ∨ s.line.was = .high → t.line.dominant = 0) ∧
      (s.selfPulls = true → s.line.was = .low → t.line.dominant = s.line.dominant) ∧
      (s.line.rx.phase = .ready → s.line.rx.check = none →
        t.line.rx = { s.line.rx with check := some 8 }) ∧
      (s.line.rx.phase = .awaitIdle → 10 ≤ idle.val →
        t.line.rx = { s.line.rx with phase := .ready, check := some 8 }) ∧
      (s.line.rx.phase = .awaitIdle → idle.val < 10 → t.line.rx = s.line.rx) ∧
      (s.line.rx.phase = .character → t.line.rx = s.line.rx) ∧
      t = { s with line := t.line }) ∧
    (s.line.rx.phase = .ready → s.line.rx.check.isSome = true →
      Completes (.startRecheck level) s (fun t =>
        (level = .low → t.line.rx.phase = .character ∧ t.line.rx.slots = [.low] ∧ t.line.idle = 0) ∧
        (level = .high → t.line.rx.phase = .ready ∧ t.line.rx.slots = s.line.rx.slots) ∧
        t.line.rx.check = none ∧ t = { s with line := t.line }))

/-! ### Frames of other stations -/

/-- An accepted FI of the group: the last-intent age is 0; a CONTEND district with yielded clear yields: its own FI is
withdrawn and it leaves by its origin, and one with yielded set goes on; a non-reversing district in the COOLING of a
trip, within tPARDON of it, is pardoned, and no other (R74, R82, R87, R88, R126, R153; log entries 8 and 9 for that
window, which PARDON_WINDOW_END closes).  While the transmitter is SENDING this is the model's DESIGN CHOICE (log
entry 35). -/
def Obligations.PeerIntentYieldsAndPardons : Prop :=
  ∀ (s : State) (b : FrameBody) (c : StationConfig), s.mode = .listen ∨ s.mode = .run ∨ s.mode = .quiet →
    s.config = some c → b.sender ≠ c.id → b.loc.group = c.group → s.NoStartOwed →
    Completes (.fiFrame b) s (fun t =>
      t.ramp.intentAge = 0 ∧ t.halt = s.halt ∧ t.mode = s.mode ∧ (s.alert = true → t.alert = true)) ∧
    ∀ k : District, Completes (.fiFrame b) s (fun t =>
      let d := s.record k
      State.yieldsToIntent s t k ∧ State.pardonedByIntent s t k ∧
      (d.state ≠ .contend → d.state ≠ .cooling → d.state ≠ .queued → t.record k = d))

/-- An accepted TR or RE of the group removes the peer entry of its sender and district and no other, and a TR with
fault INRUSH starts the hold-off of 50 ms (R147, R152).  Outside QUIET nothing else moves but the assembly.  While the
transmitter is SENDING this is the model's DESIGN CHOICE (log entry 35). -/
def Obligations.PeerTripAndRampEnd : Prop :=
  ∀ (s : State) (b : FrameBody) (c : StationConfig), s.mode = .listen ∨ s.mode = .run → s.config = some c →
    b.sender ≠ c.id → b.loc.group = c.group →
    Completes (.reFrame b) s (fun t =>
      (∀ e ∈ s.ramp.list, (e ∈ t.ramp.list ↔
        ¬ (e.isOwn = false ∧ e.station = b.sender ∧ e.district = b.loc.district))) ∧
      t = { s with line := t.line, handler := t.handler, ramp := { s.ramp with list := t.ramp.list } }) ∧
    Completes (.trFrame b) s (fun t =>
      (∀ e ∈ s.ramp.list, (e ∈ t.ramp.list ↔
        ¬ (e.isOwn = false ∧ e.station = b.sender ∧ e.district = b.loc.district))) ∧
      t.ramp.holdoff = (if b.data.toNat / 16 = 3 then some 50 else s.ramp.holdoff) ∧
      t = { s with line := t.line, handler := t.handler,
                   ramp := { s.ramp with list := t.ramp.list, holdoff := t.ramp.holdoff } })

/-- An accepted RB of the group: its DATA clamped to 1 to 16 becomes F with a life of 10000 ms if F is absent or not
lower; its key is added with a life of 96 ms, or refreshed, or takes the place of the peer entry with the least
life when the list is full; the other entries stay (R145, R146, R151).  While the transmitter is SENDING this is the
model's DESIGN CHOICE (log entry 35). -/
def Obligations.PeerRampBegin : Prop :=
  ∀ (s : State) (b : FrameBody) (c : StationConfig), s.mode = .listen ∨ s.mode = .run ∨ s.mode = .quiet →
    s.config = some c → b.sender ≠ c.id → b.loc.group = c.group → s.RampListOk → s.NoStartOwed →
    Completes (.rbFrame b) s (fun t =>
      (let v := max 1 (min b.data.toNat 16)
       t.ramp.floor = match s.ramp.floor with
         | none => some { value := v, life := 10000 }
         | some f => if v ≤ f.value then some { value := v, life := 10000 } else some f) ∧
      (let key := fun e : RampEntry => e.station = b.sender ∧ e.district = b.loc.district
       (∃ e ∈ t.ramp.list, key e ∧ e.life = some 96) ∧
       (∀ e ∈ t.ramp.list, key e → e.life = some 96) ∧
       (∀ e ∈ t.ramp.list, ¬ key e → e ∈ s.ramp.list) ∧
       (s.ramp.list.length < 16 ∨ (∃ e ∈ s.ramp.list, key e) →
         ∀ e ∈ s.ramp.list, ¬ key e → e ∈ t.ramp.list) ∧
       (s.ramp.list.length = 16 → (∀ e ∈ s.ramp.list, ¬ key e) →
         t.ramp.list.length = 16 ∧
         ∀ e ∈ s.ramp.list, e ∉ t.ramp.list → e.isOwn = false ∧
           ∀ x ∈ s.ramp.list, x.isOwn = false → e.life.getD 0 ≤ x.life.getD 0)) ∧
      t = { s with line := t.line, handler := t.handler,
                   ramp := { s.ramp with list := t.ramp.list, floor := t.ramp.floor } })

/-- An RS of another station, in LISTEN, RUN, QUIET and STRAP_FAULT: refused while a break is in progress; else
LINE_STOP is cleared and the halt ends if no cause is left; SUPPLY and START stay (R118, R121, R174).  While the
transmitter is SENDING this is the model's DESIGN CHOICE (log entry 35). -/
def Obligations.PeerResume : Prop :=
  ∀ (s : State) (b : FrameBody), s.mode ≠ .straps → s.mode ≠ .selfTest →
    (s.mode = .strapFault ∨ ∃ c, s.config = some c ∧ b.sender ≠ c.id) → s.NoStartOwed →
    (s.line.breakInProgress = true ∨ s.halt.lineStop = false →
      Completes (.rsFrame b) s (fun t => State.onlyLine s t)) ∧
    (s.line.breakInProgress = false → s.halt.lineStop = true →
      Completes (.rsFrame b) s (fun t =>
        t.halt = { s.halt with lineStop := false } ∧ t.mode = s.mode ∧
        (t.halted = false → ∀ k : District, s.leavesHalted t k) ∧
        (t.halted = true → t.districts = s.districts ∧ t.queue = s.queue)))

/-- An accepted HD acts on the district it names, or on each of the four with ALL: SET 1 sets the hold and takes the
district to DARK with n 0, but that a SWITCHING district goes on and a HALTED one is given return class DARK
(R61, R62, R63), the RE of a cut ramp is posted (R57), and a pending FI or RB for the district is withdrawn (R137);
SET 0 clears the hold, and a DARK district then probes (R64).  While the transmitter is SENDING this is the model's
DESIGN CHOICE (log entry 35). -/
def Obligations.HoldFrame : Prop :=
  ∀ (s : State) (b : FrameBody) (c : StationConfig) (k : District),
    s.mode = .listen ∨ s.mode = .run ∨ s.mode = .quiet → s.config = some c → b.sender ≠ c.id →
    b.data.toNat = c.id.val ∨ b.data.toNat = 255 → s.NoStartOwed → s.QueueOk →
    Completes (.hdFrame b) s (fun t =>
      let d := s.record k
      let e := t.record k
      let named := b.loc.all = true ∨ b.loc.district = k
      (¬ named → d.state ≠ .queued → e = d) ∧
      (named → b.loc.set = true →
        e.hold = true ∧ e.lastFault = d.lastFault ∧
        (d.state ≠ .switching → e.n = 0) ∧
        (d.state = .dark → e = { d with hold := true, n := 0 }) ∧
        (d.state ≠ .halted → d.state ≠ .switching → d.state ≠ .dark → e.state = .dark ∧ t.gate k = false ∧
          t.engine k = ⟨0, 0, none⟩ ∧ e.yielded = false ∧ e.probeFlipTried = false ∧ e.settle = none ∧
          e.watch = .none ∧ e.contend = none ∧
          (d.state = .cooling → e.pardoned = false) ∧
          (d.state = .ramping → t.hasOwnEntry k = false ∧
            (b.loc.all = false → s.places (s.frameFor .re k 0) t)) ∧
          (d.state = .contend → ∀ x ∈ t.queue, x.frame.kind = .fi → x.frame.loc.district = k →
            x.phase = .onLine .withdrawn) ∧
          (d.state = .queued → ∀ x ∈ t.queue, x.frame.kind = .rb → x.frame.loc.district = k →
            x.phase = .onLine .withdrawn)) ∧
        (d.state = .switching → e = { d with hold := true } ∧ t.relay k = s.relay k) ∧
        (d.state = .halted → e = { d with
          hold := true, n := 0, returnClass := if d.confirmPending then d.returnClass else .dark })) ∧
      (named → b.loc.set = false → d.hold = false → d.state ≠ .queued → e = d) ∧
      (named → b.loc.set = false → d.hold = true →
        e.hold = false ∧
        (d.state = .dark → s.relayDisagrees k = false → e.state = .probing ∧ e.phase = .wait ∧ e.n = 0) ∧
        (d.state = .dark → s.relayDisagrees k = true → e.state = .locked ∧ e.lastFault = .relay) ∧
        (d.state = .halted → d.confirmPending = false → d.returnClass = .dark →
          e = { d with hold := false, returnClass := .probe }) ∧
        (d.state = .switching ∨ d.state = .locked → e = { d with hold := false })) ∧
      t.halt = s.halt ∧ t.mode = s.mode)

/-- An accepted RL releases the district it names, or each of the four with ALL, and its SET flag is not read: LOCKED
goes to PROBING, or to DARK under a hold, with n 0; a HALTED district of class LOCKED changes its class; any other
state is as it was; the latch is not cleared (R59, R124).  While the transmitter is SENDING this is the model's DESIGN
CHOICE (log entry 35). -/
def Obligations.ReleaseFrame : Prop :=
  ∀ (s : State) (b : FrameBody) (c : StationConfig) (k : District),
    s.mode = .listen ∨ s.mode = .run ∨ s.mode = .quiet → s.config = some c → b.sender ≠ c.id →
    b.data.toNat = c.id.val ∨ b.data.toNat = 255 → s.NoStartOwed →
    Completes (.rlFrame b) s (fun t =>
      let d := s.record k
      let e := t.record k
      let named := b.loc.all = true ∨ b.loc.district = k
      (named → d.state = .locked → d.hold = true → e.state = .dark ∧ e.n = 0 ∧ e.lastFault = d.lastFault) ∧
      (named → d.state = .locked → d.hold = false → s.relayDisagrees k = false →
        e.state = .probing ∧ e.phase = .wait ∧ e.n = 0 ∧ e.lastFault = d.lastFault) ∧
      (named → d.state = .locked → d.hold = false → s.relayDisagrees k = true →
        e.state = .locked ∧ e.n = 0 ∧ e.lastFault = .relay ∧ t.alert = true) ∧
      (named → d.state = .halted → d.confirmPending = false → d.returnClass = .locked →
        e = { d with n := 0, returnClass := if d.hold then .dark else .probe }) ∧
      (¬ named ∨ (d.state ≠ .locked ∧
        ¬ (d.state = .halted ∧ d.confirmPending = false ∧ d.returnClass = .locked)) → e = d) ∧
      (s.alert = true → t.alert = true) ∧ t.halt = s.halt ∧ t.mode = s.mode)

/-- An accepted SQ, in RUN: four ST frames of one snapshot are posted for districts 0 to 3, with the condition bits
as nibble and state code and fault code as DATA (R199, R200).  Stated of a queue with room for them.  While the
transmitter is SENDING this is the model's DESIGN CHOICE (log entry 35). -/
def Obligations.StatusQueryAnswered : Prop :=
  ∀ (s : State) (b : FrameBody) (c : StationConfig), s.mode = .run → s.config = some c → b.sender ≠ c.id →
    b.data.toNat = c.id.val ∨ b.data.toNat = 255 → s.queue.length ≤ 4 →
    (∀ e ∈ s.queue, e.frame.kind ≠ .st) →
    Completes (.sqFrame b) s (fun t =>
      (∀ e ∈ s.queue, e ∈ t.queue) ∧ t.queue.length = s.queue.length + 4 ∧
      (∀ k : District, ∃ e ∈ t.queue, e.phase = .waiting ∧ e.frame.kind = .st ∧
        e.frame.loc = { group := c.group, district := k, all := false, set := false } ∧
        e.frame.prio.val = (if s.halt.lineStop then 8 else 0) + (if s.halt.supply then 4 else 0) +
          (if s.alert then 2 else 0) +
          (if (s.ramp.floor.map (fun f => decide (f.value < c.budget))) = some true then 1 else 0) ∧
        e.frame.data.toNat = 16 * (s.record k).state.code + (s.record k).lastFault.code) ∧
      t = { s with line := t.line, handler := t.handler, queue := t.queue })

/-- Peer frames that are discarded: an ST or an unknown kind in every mode; FI, TR, RE and RB of another group; HD,
RL and SQ for another station; SQ outside RUN; everything but RS in STRAP_FAULT.  Nothing but the assembly moves
(R117 to R121).  While the transmitter is SENDING this is the model's DESIGN CHOICE (log entry 35). -/
def Obligations.FramesDiscarded : Prop :=
  ∀ (s : State) (b : FrameBody) (extra : Fin 7),
    (∀ c, s.config = some c → b.sender ≠ c.id) →
    Completes (.stFrame b) s (fun t => State.onlyLine s t) ∧
    Completes (.unknownKindFrame extra b) s (fun t => State.onlyLine s t) ∧
    (s.mode = .strapFault ∨ (∃ c, s.config = some c ∧ b.loc.group ≠ c.group) →
      Completes (.fiFrame b) s (fun t => State.onlyLine s t) ∧
      Completes (.trFrame b) s (fun t => State.onlyLine s t) ∧
      Completes (.reFrame b) s (fun t => State.onlyLine s t) ∧
      Completes (.rbFrame b) s (fun t => State.onlyLine s t)) ∧
    (s.mode = .strapFault ∨ (∃ c, s.config = some c ∧ b.data.toNat ≠ c.id.val ∧ b.data.toNat ≠ 255) →
      Completes (.hdFrame b) s (fun t => State.onlyLine s t) ∧
      Completes (.rlFrame b) s (fun t => State.onlyLine s t) ∧
      Completes (.sqFrame b) s (fun t => State.onlyLine s t)) ∧
    (s.mode ≠ .run → Completes (.sqFrame b) s (fun t => State.onlyLine s t))

/-- A peer frame with the station's own number, of any of the ten kinds: in RUN the station enters QUIET, in LISTEN it
is noted, in QUIET nothing comes of it; no block acts on its content (R122, R123).  While the transmitter is SENDING
this is the model's DESIGN CHOICE (log entry 35). -/
def Obligations.DuplicateReported : Prop :=
  ∀ (s : State) (kind : Kind) (b : FrameBody) (c : StationConfig), s.config = some c → b.sender = c.id →
    s.NoStartOwed →
    (let peer := (Frame.ofBody kind b).command
     (s.mode = .listen → Completes peer s (fun t =>
       t = { s with line := t.line, handler := t.handler, duplicateNote := true })) ∧
     (s.mode = .quiet → Completes peer s (fun t => State.onlyLine s t)) ∧
     (s.mode = .run → s.halt.start = false → Completes peer s (fun t =>
       t.mode = .quiet ∧ t.queue = [] ∧ t.alert = true ∧ t.ramp.rbDistrict = none ∧ t.halt = s.halt ∧
       ∀ k : District, (s.record k).state ≠ .queued → t.record k = s.record k)))

/-! ### Completions of the station's own frames -/

/-- OWN_FI_COMPLETION: the transmitter is IDLE again; the entry leaves the queue, but that one marked changed stays
WAITING; the district named, if CONTEND, enters SWITCHING; every other CONTEND district takes it as an intent of the
group, its own FI withdrawn if it yields, and COOLING ones of the station are pardoned by it; the last-intent age is 0
(R73, R74, R75, R87, R88, R107, R125, R136, R153; log entry 9 for the pardon). -/
def Obligations.OwnIntentWinsFlip : Prop :=
  ∀ (s : State) (f : Frame), s.mode = .run → f.post.kind = .fi →
    s.line.tx = some { frame := f, char := 3, t := 192 } → s.QueueOk →
    Completes .ownFiCompletion s (fun t =>
      t.line.tx = none ∧ t.ramp.intentAge = 0 ∧ t.mode = .run ∧ t.halt = s.halt ∧
      (∀ e ∈ t.queue, e.phase = .waiting) ∧
      (∀ e ∈ s.queue, e.frame.kind = .fi → e.phase = .onLine .none ∨ e.phase = .onLine .withdrawn →
        ∀ x ∈ t.queue, ¬ (x.frame.kind = .fi ∧ x.frame.loc = e.frame.loc)) ∧
      (∀ e ∈ s.queue, e.frame.kind = .fi → e.phase = .onLine .changed →
        (s.record e.frame.loc.district).state ≠ .contend → { e with phase := .waiting } ∈ t.queue) ∧
      ((s.record f.post.loc.district).state = .contend →
        (t.record f.post.loc.district).state = .switching ∧
        (t.relay f.post.loc.district).confirm = some 15000 ∧
        (t.relay f.post.loc.district).commanded = true ∧
        (t.relay f.post.loc.district).pol =
          some (if (s.relay f.post.loc.district).pol = some .high then .low else .high)) ∧
      (∀ k : District, k ≠ f.post.loc.district → State.yieldsToIntent s t k) ∧
      (∀ k : District, State.pardonedByIntent s t k))

/-- OWN_RB_COMPLETION: with the named district QUEUED, the count below Beff and the hold-off idle, the district
starts its ramp, its own entry is added and no RB stays for it; else no ramp starts and an RE is posted for it (R53,
R149, R158, R159).  In both cases the unit then chooses again, and the RB of the QUEUED district that waits longest is
offered (R155, R156; stated of a queue with room and of waits below WMAX). -/
def Obligations.OwnRampBeginRechecked : Prop :=
  ∀ (s : State) (f : Frame), s.mode = .run → f.post.kind = .rb →
    s.line.tx = some { frame := f, char := 3, t := 192 } →
    (let k := f.post.loc.district
     let passes := (s.record k).state = .queued ∧ s.ramp.list.length < s.budgetInForce ∧
       s.ramp.holdoff = none
     let offersNext := fun t : State =>
       s.ramp.rbDistrict = none ∨ s.ramp.rbDistrict = some k → s.QueueOk → s.queue.length < 7 →
         ∀ j : District, t.waitsLongest j → (t.record j).w < 65535 → t.offersRamp j
     (passes → Completes .ownRbCompletion s (fun t =>
       offersNext t ∧
       (t.record k).state = .ramping ∧ (t.record k).k = 0 ∧ (t.record k).n = (s.record k).n ∧
       t.gate k = true ∧ t.engine k = ⟨0, 0, none⟩ ∧ t.line.tx = none ∧ State.othersKept k s t ∧
       (∀ x ∈ t.queue, x.phase = .waiting ∧ ¬ (x.frame.kind = .rb ∧ x.frame.loc.district = k)) ∧
       t.ramp.list = s.ramp.list ++ [{ station := s.stationId, district := k, kind := .own }] ∧
       t.ramp.floor = s.ramp.floor ∧ t.ramp.holdoff = none ∧ t.alert = s.alert ∧ t.halt = s.halt)) ∧
     (¬ passes → Completes .ownRbCompletion s (fun t =>
       offersNext t ∧
       t.districts = s.districts ∧ t.engines = s.engines ∧ t.relays = s.relays ∧ t.line.tx = none ∧
       t.ramp.list = s.ramp.list ∧ t.alert = s.alert ∧ t.halt = s.halt ∧
       (s.queue.length < 8 → ∃ e ∈ t.queue, e.frame = s.frameFor .re k 0))))

/-- OWN_TR_COMPLETION starts the hold-off when the fault is INRUSH; the completion of an own RE, RS or ST has no
effect beyond the queue and the line.  The ON_LINE entry leaves the queue, unless it is marked changed: then it
stays WAITING with its new frame; every WAITING entry stays (R107, R125, R136, R138, R152).  With an RB district no
choice is made again; with none the unit chooses again after the completion, and the RB of the QUEUED district that
waits longest is offered (R155 to R157; stated of a queue left with room and of waits below WMAX). -/
def Obligations.OwnOtherCompletions : Prop :=
  ∀ (s : State) (f : Frame), s.mode = .run → s.line.tx = some { frame := f, char := 3, t := 192 } →
    (let held := if f.post.kind = .tr ∧ f.post.data.toNat / 16 = 3 then some 50 else s.ramp.holdoff
     let settled := fun t : State =>
      (∀ e ∈ s.queue, e.phase = .waiting → e ∈ t.queue) ∧
      (∀ e ∈ s.queue, e.phase = .onLine .changed → { e with phase := .waiting } ∈ t.queue) ∧
      ∀ x ∈ t.queue, x.phase = .waiting ∧
        (x ∈ s.queue ∨ ∃ e ∈ s.queue, e.phase = .onLine .changed ∧ x = { e with phase := .waiting })
     let completed := fun t : State =>
       t.line.tx = none ∧
       (s.ramp.rbDistrict ≠ none → settled t ∧
         t = { s with line := t.line, handler := t.handler, queue := t.queue,
                      ramp := { s.ramp with holdoff := held } }) ∧
       (s.ramp.rbDistrict = none →
         t = { s with line := t.line, handler := t.handler, queue := t.queue,
                      ramp := { s.ramp with holdoff := held, chosen := t.ramp.chosen,
                                            rbDistrict := t.ramp.rbDistrict } } ∧
         ((∀ j : District, (s.record j).state ≠ .queued) → settled t ∧ t.ramp.rbDistrict = none) ∧
         (s.QueueOk → s.queue.length < 8 ∨ (∃ e ∈ s.queue, e.phase = .onLine .none) →
           (∀ e ∈ s.queue, e.phase = .waiting → e.frame.kind ≠ .rb → e ∈ t.queue) ∧
           ∀ j : District, t.waitsLongest j → (t.record j).w < 65535 → t.offersRamp j))
     (f.post.kind = .tr → Completes .ownTrCompletion s completed) ∧
     (f.post.kind = .re ∨ f.post.kind = .rs ∨ f.post.kind = .st → Completes .ownFrameCompletion s completed))

/-! ### Invariants -/

/-- The conditions of Safety.lean hold right after reset. -/
def Obligations.ResetMeetsInvariants : Prop :=
  State.reset.QueueOk ∧ State.reset.HaltOk ∧ State.reset.GateOk ∧ State.reset.RampListOk ∧
    State.reset.RecordsOk ∧ State.reset.NoStartOwed

/-- Every step keeps the outgoing queue in order: at most 8 entries in rank order, at most one RB, no two of one kind
with one WHERE, at most one ON_LINE and none while the transmitter is IDLE, and nothing outside RUN (R130 to R132,
R140, R141). -/
def Obligations.StepKeepsQueueOk : Prop :=
  ∀ (s t : State), s.QueueOk → step s = .next t → t.QueueOk

/-- Every step keeps the halt: while a cause is present every district is HALTED; while none is, a HALTED district
is confirm-pending; START is present outside RUN and QUIET alone; SUPPLY agrees with the monitor (R164, R165,
R171, R177). -/
def Obligations.StepKeepsHaltOk : Prop :=
  ∀ (s t : State), s.HaltOk → step s = .next t → t.HaltOk

/-- Every step keeps a district whose gate is off without excess, hard run and probe record (R20, R24, R36). -/
def Obligations.StepKeepsGateOk : Prop :=
  ∀ (s t : State), s.GateOk → step s = .next t → t.GateOk

/-- Every step keeps the ramp list: at most 16 entries, no key twice, and own entries exactly for the districts that
are RAMPING (R144, R149); and in QUIET no eligible district is left waiting while none ramps (R161). -/
def Obligations.StepKeepsRampListOk : Prop :=
  ∀ (s t : State), s.HaltOk → s.RampListOk → s.NoStartOwed → step s = .next t →
    t.RampListOk ∧ t.NoStartOwed

/-- Every step keeps the counts and the holds: n at most 8, and 8 only in LOCKED or HALTED of class LOCKED (R44); a
DARK district has its hold set (03 3.11). -/
def Obligations.StepKeepsRecordsOk : Prop :=
  ∀ (s t : State), s.RecordsOk → step s = .next t → t.RecordsOk

/-- Only END_OF_LISTEN leaves LISTEN for RUN, and only RESET leaves QUIET or STRAP_FAULT (R179, R189, R190). -/
def Obligations.ModeTransitions : Prop :=
  ∀ (s t : State) (c : Instr), exec c s = .next t →
    (t.mode = .run → s.mode = .run ∨ s.mode = .listen ∧ c = .endOfListen) ∧
    (s.mode = .quiet → t.mode = .quiet ∨ c = .reset) ∧
    (s.mode = .strapFault → t.mode = .strapFault ∨ c = .reset) ∧
    (s.config ≠ none → t.config = s.config ∨ c = .reset ∨ s.mode = .straps)

end
end

