-- ==== Sys2Proof/Laws/State.lean ====
section
/-! SUPPORT. The small lemmas of the state: what each update of a district's record, trip engine and changeover
state, of the ramp list unit and of the line interface gives, and every field it leaves, one lemma each, true by
rfl. -/

namespace Sys2Proof.Machine

/-! ### One value per district -/

@[simp] theorem PerDistrict.get_all {α : Type} (x : α) (k : District) : (PerDistrict.all x).get k = x := by
  fin_cases k <;> rfl

@[simp] theorem PerDistrict.get_map {α : Type} (f : α → α) (q : PerDistrict α) (k : District) :
    (q.map f).get k = f (q.get k) := by
  fin_cases k <;> rfl

@[simp] theorem PerDistrict.get_set_self {α : Type} (q : PerDistrict α) (k : District) (x : α) :
    (q.set k x).get k = x := by
  fin_cases k <;> rfl

@[simp] theorem PerDistrict.get_set_other {α : Type} (q : PerDistrict α) {j k : District} (h : j ≠ k) (x : α) :
    (q.set k x).get j = q.get j := by
  fin_cases j <;> fin_cases k <;> first | rfl | exact absurd rfl h

/-- Equal at every district is equal. -/
theorem PerDistrict.ext_get {α : Type} {p q : PerDistrict α} (h : ∀ k : District, p.get k = q.get k) : p = q := by
  cases p
  cases q
  have h0 := h 0
  have h1 := h 1
  have h2 := h 2
  have h3 := h 3
  simp only [PerDistrict.get] at h0 h1 h2 h3
  simp only [h0, h1, h2, h3]

/-! ### Records, engines and relays -/

@[simp] theorem State.record_setRecord_self (s : State) (k : District) (d : DistrictRecord) :
    (s.setRecord k d).record k = d := PerDistrict.get_set_self _ _ _

@[simp] theorem State.record_setRecord_other (s : State) {j k : District} (h : j ≠ k) (d : DistrictRecord) :
    (s.setRecord k d).record j = s.record j := PerDistrict.get_set_other _ h _

@[simp] theorem State.engine_setEngine_self (s : State) (k : District) (e : Engine) :
    (s.setEngine k e).engine k = e := PerDistrict.get_set_self _ _ _

@[simp] theorem State.engine_setEngine_other (s : State) {j k : District} (h : j ≠ k) (e : Engine) :
    (s.setEngine k e).engine j = s.engine j := PerDistrict.get_set_other _ h _

@[simp] theorem State.relay_setRelay_self (s : State) (k : District) (r : Relay) :
    (s.setRelay k r).relay k = r := PerDistrict.get_set_self _ _ _

@[simp] theorem State.relay_setRelay_other (s : State) {j k : District} (h : j ≠ k) (r : Relay) :
    (s.setRelay k r).relay j = s.relay j := PerDistrict.get_set_other _ h _

@[simp] theorem State.modRecord_eq (s : State) (k : District) (f : DistrictRecord → DistrictRecord) :
    s.modRecord k f = s.setRecord k (f (s.record k)) := rfl

@[simp] theorem State.modRelay_eq (s : State) (k : District) (f : Relay → Relay) :
    s.modRelay k f = s.setRelay k (f (s.relay k)) := rfl

@[simp] theorem State.modRx_eq (s : State) (f : Receiver → Receiver) :
    s.modRx f = s.modLine (fun l => { l with rx := f l.rx }) := rfl

/-! ### setRecord -/

@[simp] theorem State.engine_setRecord (s : State) (k : District) (d : DistrictRecord) (j : District) :
    (s.setRecord k d).engine j = s.engine j := rfl

@[simp] theorem State.relay_setRecord (s : State) (k : District) (d : DistrictRecord) (j : District) :
    (s.setRecord k d).relay j = s.relay j := rfl

@[simp] theorem State.halted_setRecord (s : State) (k : District) (d : DistrictRecord) : (s.setRecord k d).halted = s.halted := rfl

@[simp] theorem State.group_setRecord (s : State) (k : District) (d : DistrictRecord) : (s.setRecord k d).group = s.group := rfl

@[simp] theorem State.stationId_setRecord (s : State) (k : District) (d : DistrictRecord) : (s.setRecord k d).stationId = s.stationId := rfl

@[simp] theorem State.budget_setRecord (s : State) (k : District) (d : DistrictRecord) : (s.setRecord k d).budget = s.budget := rfl

@[simp] theorem State.strPins_setRecord (s : State) (k : District) (d : DistrictRecord) : (s.setRecord k d).strPins = s.strPins := rfl

@[simp] theorem State.isenPins_setRecord (s : State) (k : District) (d : DistrictRecord) : (s.setRecord k d).isenPins = s.isenPins := rfl

@[simp] theorem State.vsenPin_setRecord (s : State) (k : District) (d : DistrictRecord) : (s.setRecord k d).vsenPin = s.vsenPin := rfl

@[simp] theorem State.converter_setRecord (s : State) (k : District) (d : DistrictRecord) : (s.setRecord k d).converter = s.converter := rfl

@[simp] theorem State.supply_setRecord (s : State) (k : District) (d : DistrictRecord) : (s.setRecord k d).supply = s.supply := rfl

@[simp] theorem State.stopQ_setRecord (s : State) (k : District) (d : DistrictRecord) : (s.setRecord k d).stopQ = s.stopQ := rfl

@[simp] theorem State.resumeQ_setRecord (s : State) (k : District) (d : DistrictRecord) : (s.setRecord k d).resumeQ = s.resumeQ := rfl

@[simp] theorem State.releaseQ_setRecord (s : State) (k : District) (d : DistrictRecord) : (s.setRecord k d).releaseQ = s.releaseQ := rfl

@[simp] theorem State.cnfQ_setRecord (s : State) (k : District) (d : DistrictRecord) : (s.setRecord k d).cnfQ = s.cnfQ := rfl

@[simp] theorem State.mode_setRecord (s : State) (k : District) (d : DistrictRecord) : (s.setRecord k d).mode = s.mode := rfl

@[simp] theorem State.readings_setRecord (s : State) (k : District) (d : DistrictRecord) : (s.setRecord k d).readings = s.readings := rfl

@[simp] theorem State.config_setRecord (s : State) (k : District) (d : DistrictRecord) : (s.setRecord k d).config = s.config := rfl

@[simp] theorem State.halt_setRecord (s : State) (k : District) (d : DistrictRecord) : (s.setRecord k d).halt = s.halt := rfl

@[simp] theorem State.haltEnded_setRecord (s : State) (k : District) (d : DistrictRecord) : (s.setRecord k d).haltEnded = s.haltEnded := rfl

@[simp] theorem State.selfTestNote_setRecord (s : State) (k : District) (d : DistrictRecord) : (s.setRecord k d).selfTestNote = s.selfTestNote := rfl

@[simp] theorem State.duplicateNote_setRecord (s : State) (k : District) (d : DistrictRecord) : (s.setRecord k d).duplicateNote = s.duplicateNote := rfl

@[simp] theorem State.selfTest_setRecord (s : State) (k : District) (d : DistrictRecord) : (s.setRecord k d).selfTest = s.selfTest := rfl

@[simp] theorem State.listen_setRecord (s : State) (k : District) (d : DistrictRecord) : (s.setRecord k d).listen = s.listen := rfl

@[simp] theorem State.engines_setRecord (s : State) (k : District) (d : DistrictRecord) : (s.setRecord k d).engines = s.engines := rfl

@[simp] theorem State.relays_setRecord (s : State) (k : District) (d : DistrictRecord) : (s.setRecord k d).relays = s.relays := rfl

@[simp] theorem State.line_setRecord (s : State) (k : District) (d : DistrictRecord) : (s.setRecord k d).line = s.line := rfl

@[simp] theorem State.handler_setRecord (s : State) (k : District) (d : DistrictRecord) : (s.setRecord k d).handler = s.handler := rfl

@[simp] theorem State.queue_setRecord (s : State) (k : District) (d : DistrictRecord) : (s.setRecord k d).queue = s.queue := rfl

@[simp] theorem State.ramp_setRecord (s : State) (k : District) (d : DistrictRecord) : (s.setRecord k d).ramp = s.ramp := rfl

@[simp] theorem State.msLeft_setRecord (s : State) (k : District) (d : DistrictRecord) : (s.setRecord k d).msLeft = s.msLeft := rfl

@[simp] theorem State.alert_setRecord (s : State) (k : District) (d : DistrictRecord) : (s.setRecord k d).alert = s.alert := rfl

@[simp] theorem State.lampPhase_setRecord (s : State) (k : District) (d : DistrictRecord) : (s.setRecord k d).lampPhase = s.lampPhase := rfl

@[simp] theorem State.lampLeft_setRecord (s : State) (k : District) (d : DistrictRecord) : (s.setRecord k d).lampLeft = s.lampLeft := rfl

@[simp] theorem State.tie_setRecord (s : State) (k : District) (d : DistrictRecord) : (s.setRecord k d).tie = s.tie := rfl

@[simp] theorem State.pending_setRecord (s : State) (k : District) (d : DistrictRecord) : (s.setRecord k d).pending = s.pending := rfl

/-! ### setEngine -/

@[simp] theorem State.record_setEngine (s : State) (k : District) (e : Engine) (j : District) :
    (s.setEngine k e).record j = s.record j := rfl

@[simp] theorem State.relay_setEngine (s : State) (k : District) (e : Engine) (j : District) :
    (s.setEngine k e).relay j = s.relay j := rfl

@[simp] theorem State.halted_setEngine (s : State) (k : District) (e : Engine) : (s.setEngine k e).halted = s.halted := rfl

@[simp] theorem State.group_setEngine (s : State) (k : District) (e : Engine) : (s.setEngine k e).group = s.group := rfl

@[simp] theorem State.stationId_setEngine (s : State) (k : District) (e : Engine) : (s.setEngine k e).stationId = s.stationId := rfl

@[simp] theorem State.budget_setEngine (s : State) (k : District) (e : Engine) : (s.setEngine k e).budget = s.budget := rfl

@[simp] theorem State.gate_setEngine (s : State) (k : District) (e : Engine) (j : District) : (s.setEngine k e).gate j = s.gate j := rfl

@[simp] theorem State.strPins_setEngine (s : State) (k : District) (e : Engine) : (s.setEngine k e).strPins = s.strPins := rfl

@[simp] theorem State.isenPins_setEngine (s : State) (k : District) (e : Engine) : (s.setEngine k e).isenPins = s.isenPins := rfl

@[simp] theorem State.vsenPin_setEngine (s : State) (k : District) (e : Engine) : (s.setEngine k e).vsenPin = s.vsenPin := rfl

@[simp] theorem State.converter_setEngine (s : State) (k : District) (e : Engine) : (s.setEngine k e).converter = s.converter := rfl

@[simp] theorem State.supply_setEngine (s : State) (k : District) (e : Engine) : (s.setEngine k e).supply = s.supply := rfl

@[simp] theorem State.stopQ_setEngine (s : State) (k : District) (e : Engine) : (s.setEngine k e).stopQ = s.stopQ := rfl

@[simp] theorem State.resumeQ_setEngine (s : State) (k : District) (e : Engine) : (s.setEngine k e).resumeQ = s.resumeQ := rfl

@[simp] theorem State.releaseQ_setEngine (s : State) (k : District) (e : Engine) : (s.setEngine k e).releaseQ = s.releaseQ := rfl

@[simp] theorem State.cnfQ_setEngine (s : State) (k : District) (e : Engine) : (s.setEngine k e).cnfQ = s.cnfQ := rfl

@[simp] theorem State.mode_setEngine (s : State) (k : District) (e : Engine) : (s.setEngine k e).mode = s.mode := rfl

@[simp] theorem State.readings_setEngine (s : State) (k : District) (e : Engine) : (s.setEngine k e).readings = s.readings := rfl

@[simp] theorem State.config_setEngine (s : State) (k : District) (e : Engine) : (s.setEngine k e).config = s.config := rfl

@[simp] theorem State.halt_setEngine (s : State) (k : District) (e : Engine) : (s.setEngine k e).halt = s.halt := rfl

@[simp] theorem State.haltEnded_setEngine (s : State) (k : District) (e : Engine) : (s.setEngine k e).haltEnded = s.haltEnded := rfl

@[simp] theorem State.selfTestNote_setEngine (s : State) (k : District) (e : Engine) : (s.setEngine k e).selfTestNote = s.selfTestNote := rfl

@[simp] theorem State.duplicateNote_setEngine (s : State) (k : District) (e : Engine) : (s.setEngine k e).duplicateNote = s.duplicateNote := rfl

@[simp] theorem State.selfTest_setEngine (s : State) (k : District) (e : Engine) : (s.setEngine k e).selfTest = s.selfTest := rfl

@[simp] theorem State.listen_setEngine (s : State) (k : District) (e : Engine) : (s.setEngine k e).listen = s.listen := rfl

@[simp] theorem State.districts_setEngine (s : State) (k : District) (e : Engine) : (s.setEngine k e).districts = s.districts := rfl

@[simp] theorem State.relays_setEngine (s : State) (k : District) (e : Engine) : (s.setEngine k e).relays = s.relays := rfl

@[simp] theorem State.line_setEngine (s : State) (k : District) (e : Engine) : (s.setEngine k e).line = s.line := rfl

@[simp] theorem State.handler_setEngine (s : State) (k : District) (e : Engine) : (s.setEngine k e).handler = s.handler := rfl

@[simp] theorem State.queue_setEngine (s : State) (k : District) (e : Engine) : (s.setEngine k e).queue = s.queue := rfl

@[simp] theorem State.ramp_setEngine (s : State) (k : District) (e : Engine) : (s.setEngine k e).ramp = s.ramp := rfl

@[simp] theorem State.msLeft_setEngine (s : State) (k : District) (e : Engine) : (s.setEngine k e).msLeft = s.msLeft := rfl

@[simp] theorem State.alert_setEngine (s : State) (k : District) (e : Engine) : (s.setEngine k e).alert = s.alert := rfl

@[simp] theorem State.lampPhase_setEngine (s : State) (k : District) (e : Engine) : (s.setEngine k e).lampPhase = s.lampPhase := rfl

@[simp] theorem State.lampLeft_setEngine (s : State) (k : District) (e : Engine) : (s.setEngine k e).lampLeft = s.lampLeft := rfl

@[simp] theorem State.tie_setEngine (s : State) (k : District) (e : Engine) : (s.setEngine k e).tie = s.tie := rfl

@[simp] theorem State.pending_setEngine (s : State) (k : District) (e : Engine) : (s.setEngine k e).pending = s.pending := rfl

/-! ### setRelay -/

@[simp] theorem State.record_setRelay (s : State) (k : District) (r : Relay) (j : District) :
    (s.setRelay k r).record j = s.record j := rfl

@[simp] theorem State.engine_setRelay (s : State) (k : District) (r : Relay) (j : District) :
    (s.setRelay k r).engine j = s.engine j := rfl

@[simp] theorem State.halted_setRelay (s : State) (k : District) (r : Relay) : (s.setRelay k r).halted = s.halted := rfl

@[simp] theorem State.group_setRelay (s : State) (k : District) (r : Relay) : (s.setRelay k r).group = s.group := rfl

@[simp] theorem State.stationId_setRelay (s : State) (k : District) (r : Relay) : (s.setRelay k r).stationId = s.stationId := rfl

@[simp] theorem State.budget_setRelay (s : State) (k : District) (r : Relay) : (s.setRelay k r).budget = s.budget := rfl

@[simp] theorem State.gate_setRelay (s : State) (k : District) (r : Relay) (j : District) : (s.setRelay k r).gate j = s.gate j := rfl

@[simp] theorem State.strPins_setRelay (s : State) (k : District) (r : Relay) : (s.setRelay k r).strPins = s.strPins := rfl

@[simp] theorem State.isenPins_setRelay (s : State) (k : District) (r : Relay) : (s.setRelay k r).isenPins = s.isenPins := rfl

@[simp] theorem State.vsenPin_setRelay (s : State) (k : District) (r : Relay) : (s.setRelay k r).vsenPin = s.vsenPin := rfl

@[simp] theorem State.converter_setRelay (s : State) (k : District) (r : Relay) : (s.setRelay k r).converter = s.converter := rfl

@[simp] theorem State.supply_setRelay (s : State) (k : District) (r : Relay) : (s.setRelay k r).supply = s.supply := rfl

@[simp] theorem State.stopQ_setRelay (s : State) (k : District) (r : Relay) : (s.setRelay k r).stopQ = s.stopQ := rfl

@[simp] theorem State.resumeQ_setRelay (s : State) (k : District) (r : Relay) : (s.setRelay k r).resumeQ = s.resumeQ := rfl

@[simp] theorem State.releaseQ_setRelay (s : State) (k : District) (r : Relay) : (s.setRelay k r).releaseQ = s.releaseQ := rfl

@[simp] theorem State.cnfQ_setRelay (s : State) (k : District) (r : Relay) : (s.setRelay k r).cnfQ = s.cnfQ := rfl

@[simp] theorem State.mode_setRelay (s : State) (k : District) (r : Relay) : (s.setRelay k r).mode = s.mode := rfl

@[simp] theorem State.readings_setRelay (s : State) (k : District) (r : Relay) : (s.setRelay k r).readings = s.readings := rfl

@[simp] theorem State.config_setRelay (s : State) (k : District) (r : Relay) : (s.setRelay k r).config = s.config := rfl

@[simp] theorem State.halt_setRelay (s : State) (k : District) (r : Relay) : (s.setRelay k r).halt = s.halt := rfl

@[simp] theorem State.haltEnded_setRelay (s : State) (k : District) (r : Relay) : (s.setRelay k r).haltEnded = s.haltEnded := rfl

@[simp] theorem State.selfTestNote_setRelay (s : State) (k : District) (r : Relay) : (s.setRelay k r).selfTestNote = s.selfTestNote := rfl

@[simp] theorem State.duplicateNote_setRelay (s : State) (k : District) (r : Relay) : (s.setRelay k r).duplicateNote = s.duplicateNote := rfl

@[simp] theorem State.selfTest_setRelay (s : State) (k : District) (r : Relay) : (s.setRelay k r).selfTest = s.selfTest := rfl

@[simp] theorem State.listen_setRelay (s : State) (k : District) (r : Relay) : (s.setRelay k r).listen = s.listen := rfl

@[simp] theorem State.engines_setRelay (s : State) (k : District) (r : Relay) : (s.setRelay k r).engines = s.engines := rfl

@[simp] theorem State.districts_setRelay (s : State) (k : District) (r : Relay) : (s.setRelay k r).districts = s.districts := rfl

@[simp] theorem State.line_setRelay (s : State) (k : District) (r : Relay) : (s.setRelay k r).line = s.line := rfl

@[simp] theorem State.handler_setRelay (s : State) (k : District) (r : Relay) : (s.setRelay k r).handler = s.handler := rfl

@[simp] theorem State.queue_setRelay (s : State) (k : District) (r : Relay) : (s.setRelay k r).queue = s.queue := rfl

@[simp] theorem State.ramp_setRelay (s : State) (k : District) (r : Relay) : (s.setRelay k r).ramp = s.ramp := rfl

@[simp] theorem State.msLeft_setRelay (s : State) (k : District) (r : Relay) : (s.setRelay k r).msLeft = s.msLeft := rfl

@[simp] theorem State.alert_setRelay (s : State) (k : District) (r : Relay) : (s.setRelay k r).alert = s.alert := rfl

@[simp] theorem State.lampPhase_setRelay (s : State) (k : District) (r : Relay) : (s.setRelay k r).lampPhase = s.lampPhase := rfl

@[simp] theorem State.lampLeft_setRelay (s : State) (k : District) (r : Relay) : (s.setRelay k r).lampLeft = s.lampLeft := rfl

@[simp] theorem State.tie_setRelay (s : State) (k : District) (r : Relay) : (s.setRelay k r).tie = s.tie := rfl

@[simp] theorem State.pending_setRelay (s : State) (k : District) (r : Relay) : (s.setRelay k r).pending = s.pending := rfl

/-! ### modRamp -/

@[simp] theorem State.record_modRamp (s : State) (f : RampUnit → RampUnit) (j : District) :
    (s.modRamp f).record j = s.record j := rfl

@[simp] theorem State.engine_modRamp (s : State) (f : RampUnit → RampUnit) (j : District) :
    (s.modRamp f).engine j = s.engine j := rfl

@[simp] theorem State.relay_modRamp (s : State) (f : RampUnit → RampUnit) (j : District) :
    (s.modRamp f).relay j = s.relay j := rfl

@[simp] theorem State.halted_modRamp (s : State) (f : RampUnit → RampUnit) : (s.modRamp f).halted = s.halted := rfl

@[simp] theorem State.group_modRamp (s : State) (f : RampUnit → RampUnit) : (s.modRamp f).group = s.group := rfl

@[simp] theorem State.stationId_modRamp (s : State) (f : RampUnit → RampUnit) : (s.modRamp f).stationId = s.stationId := rfl

@[simp] theorem State.budget_modRamp (s : State) (f : RampUnit → RampUnit) : (s.modRamp f).budget = s.budget := rfl

@[simp] theorem State.gate_modRamp (s : State) (f : RampUnit → RampUnit) (j : District) : (s.modRamp f).gate j = s.gate j := rfl

@[simp] theorem State.strPins_modRamp (s : State) (f : RampUnit → RampUnit) : (s.modRamp f).strPins = s.strPins := rfl

@[simp] theorem State.isenPins_modRamp (s : State) (f : RampUnit → RampUnit) : (s.modRamp f).isenPins = s.isenPins := rfl

@[simp] theorem State.vsenPin_modRamp (s : State) (f : RampUnit → RampUnit) : (s.modRamp f).vsenPin = s.vsenPin := rfl

@[simp] theorem State.converter_modRamp (s : State) (f : RampUnit → RampUnit) : (s.modRamp f).converter = s.converter := rfl

@[simp] theorem State.supply_modRamp (s : State) (f : RampUnit → RampUnit) : (s.modRamp f).supply = s.supply := rfl

@[simp] theorem State.stopQ_modRamp (s : State) (f : RampUnit → RampUnit) : (s.modRamp f).stopQ = s.stopQ := rfl

@[simp] theorem State.resumeQ_modRamp (s : State) (f : RampUnit → RampUnit) : (s.modRamp f).resumeQ = s.resumeQ := rfl

@[simp] theorem State.releaseQ_modRamp (s : State) (f : RampUnit → RampUnit) : (s.modRamp f).releaseQ = s.releaseQ := rfl

@[simp] theorem State.cnfQ_modRamp (s : State) (f : RampUnit → RampUnit) : (s.modRamp f).cnfQ = s.cnfQ := rfl

@[simp] theorem State.mode_modRamp (s : State) (f : RampUnit → RampUnit) : (s.modRamp f).mode = s.mode := rfl

@[simp] theorem State.readings_modRamp (s : State) (f : RampUnit → RampUnit) : (s.modRamp f).readings = s.readings := rfl

@[simp] theorem State.config_modRamp (s : State) (f : RampUnit → RampUnit) : (s.modRamp f).config = s.config := rfl

@[simp] theorem State.halt_modRamp (s : State) (f : RampUnit → RampUnit) : (s.modRamp f).halt = s.halt := rfl

@[simp] theorem State.haltEnded_modRamp (s : State) (f : RampUnit → RampUnit) : (s.modRamp f).haltEnded = s.haltEnded := rfl

@[simp] theorem State.selfTestNote_modRamp (s : State) (f : RampUnit → RampUnit) : (s.modRamp f).selfTestNote = s.selfTestNote := rfl

@[simp] theorem State.duplicateNote_modRamp (s : State) (f : RampUnit → RampUnit) : (s.modRamp f).duplicateNote = s.duplicateNote := rfl

@[simp] theorem State.selfTest_modRamp (s : State) (f : RampUnit → RampUnit) : (s.modRamp f).selfTest = s.selfTest := rfl

@[simp] theorem State.listen_modRamp (s : State) (f : RampUnit → RampUnit) : (s.modRamp f).listen = s.listen := rfl

@[simp] theorem State.engines_modRamp (s : State) (f : RampUnit → RampUnit) : (s.modRamp f).engines = s.engines := rfl

@[simp] theorem State.districts_modRamp (s : State) (f : RampUnit → RampUnit) : (s.modRamp f).districts = s.districts := rfl

@[simp] theorem State.relays_modRamp (s : State) (f : RampUnit → RampUnit) : (s.modRamp f).relays = s.relays := rfl

@[simp] theorem State.line_modRamp (s : State) (f : RampUnit → RampUnit) : (s.modRamp f).line = s.line := rfl

@[simp] theorem State.handler_modRamp (s : State) (f : RampUnit → RampUnit) : (s.modRamp f).handler = s.handler := rfl

@[simp] theorem State.queue_modRamp (s : State) (f : RampUnit → RampUnit) : (s.modRamp f).queue = s.queue := rfl

@[simp] theorem State.ramp_modRamp (s : State) (f : RampUnit → RampUnit) : (s.modRamp f).ramp = f s.ramp := rfl

@[simp] theorem State.msLeft_modRamp (s : State) (f : RampUnit → RampUnit) : (s.modRamp f).msLeft = s.msLeft := rfl

@[simp] theorem State.alert_modRamp (s : State) (f : RampUnit → RampUnit) : (s.modRamp f).alert = s.alert := rfl

@[simp] theorem State.lampPhase_modRamp (s : State) (f : RampUnit → RampUnit) : (s.modRamp f).lampPhase = s.lampPhase := rfl

@[simp] theorem State.lampLeft_modRamp (s : State) (f : RampUnit → RampUnit) : (s.modRamp f).lampLeft = s.lampLeft := rfl

@[simp] theorem State.tie_modRamp (s : State) (f : RampUnit → RampUnit) : (s.modRamp f).tie = s.tie := rfl

@[simp] theorem State.pending_modRamp (s : State) (f : RampUnit → RampUnit) : (s.modRamp f).pending = s.pending := rfl

/-! ### modLine -/

@[simp] theorem State.record_modLine (s : State) (f : LineInterface → LineInterface) (j : District) :
    (s.modLine f).record j = s.record j := rfl

@[simp] theorem State.engine_modLine (s : State) (f : LineInterface → LineInterface) (j : District) :
    (s.modLine f).engine j = s.engine j := rfl

@[simp] theorem State.relay_modLine (s : State) (f : LineInterface → LineInterface) (j : District) :
    (s.modLine f).relay j = s.relay j := rfl

@[simp] theorem State.halted_modLine (s : State) (f : LineInterface → LineInterface) : (s.modLine f).halted = s.halted := rfl

@[simp] theorem State.group_modLine (s : State) (f : LineInterface → LineInterface) : (s.modLine f).group = s.group := rfl

@[simp] theorem State.stationId_modLine (s : State) (f : LineInterface → LineInterface) : (s.modLine f).stationId = s.stationId := rfl

@[simp] theorem State.budget_modLine (s : State) (f : LineInterface → LineInterface) : (s.modLine f).budget = s.budget := rfl

@[simp] theorem State.gate_modLine (s : State) (f : LineInterface → LineInterface) (j : District) : (s.modLine f).gate j = s.gate j := rfl

@[simp] theorem State.strPins_modLine (s : State) (f : LineInterface → LineInterface) : (s.modLine f).strPins = s.strPins := rfl

@[simp] theorem State.isenPins_modLine (s : State) (f : LineInterface → LineInterface) : (s.modLine f).isenPins = s.isenPins := rfl

@[simp] theorem State.vsenPin_modLine (s : State) (f : LineInterface → LineInterface) : (s.modLine f).vsenPin = s.vsenPin := rfl

@[simp] theorem State.converter_modLine (s : State) (f : LineInterface → LineInterface) : (s.modLine f).converter = s.converter := rfl

@[simp] theorem State.supply_modLine (s : State) (f : LineInterface → LineInterface) : (s.modLine f).supply = s.supply := rfl

@[simp] theorem State.stopQ_modLine (s : State) (f : LineInterface → LineInterface) : (s.modLine f).stopQ = s.stopQ := rfl

@[simp] theorem State.resumeQ_modLine (s : State) (f : LineInterface → LineInterface) : (s.modLine f).resumeQ = s.resumeQ := rfl

@[simp] theorem State.releaseQ_modLine (s : State) (f : LineInterface → LineInterface) : (s.modLine f).releaseQ = s.releaseQ := rfl

@[simp] theorem State.cnfQ_modLine (s : State) (f : LineInterface → LineInterface) : (s.modLine f).cnfQ = s.cnfQ := rfl

@[simp] theorem State.mode_modLine (s : State) (f : LineInterface → LineInterface) : (s.modLine f).mode = s.mode := rfl

@[simp] theorem State.readings_modLine (s : State) (f : LineInterface → LineInterface) : (s.modLine f).readings = s.readings := rfl

@[simp] theorem State.config_modLine (s : State) (f : LineInterface → LineInterface) : (s.modLine f).config = s.config := rfl

@[simp] theorem State.halt_modLine (s : State) (f : LineInterface → LineInterface) : (s.modLine f).halt = s.halt := rfl

@[simp] theorem State.haltEnded_modLine (s : State) (f : LineInterface → LineInterface) : (s.modLine f).haltEnded = s.haltEnded := rfl

@[simp] theorem State.selfTestNote_modLine (s : State) (f : LineInterface → LineInterface) : (s.modLine f).selfTestNote = s.selfTestNote := rfl

@[simp] theorem State.duplicateNote_modLine (s : State) (f : LineInterface → LineInterface) : (s.modLine f).duplicateNote = s.duplicateNote := rfl

@[simp] theorem State.selfTest_modLine (s : State) (f : LineInterface → LineInterface) : (s.modLine f).selfTest = s.selfTest := rfl

@[simp] theorem State.listen_modLine (s : State) (f : LineInterface → LineInterface) : (s.modLine f).listen = s.listen := rfl

@[simp] theorem State.engines_modLine (s : State) (f : LineInterface → LineInterface) : (s.modLine f).engines = s.engines := rfl

@[simp] theorem State.districts_modLine (s : State) (f : LineInterface → LineInterface) : (s.modLine f).districts = s.districts := rfl

@[simp] theorem State.relays_modLine (s : State) (f : LineInterface → LineInterface) : (s.modLine f).relays = s.relays := rfl

@[simp] theorem State.line_modLine (s : State) (f : LineInterface → LineInterface) : (s.modLine f).line = f s.line := rfl

@[simp] theorem State.handler_modLine (s : State) (f : LineInterface → LineInterface) : (s.modLine f).handler = s.handler := rfl

@[simp] theorem State.queue_modLine (s : State) (f : LineInterface → LineInterface) : (s.modLine f).queue = s.queue := rfl

@[simp] theorem State.ramp_modLine (s : State) (f : LineInterface → LineInterface) : (s.modLine f).ramp = s.ramp := rfl

@[simp] theorem State.msLeft_modLine (s : State) (f : LineInterface → LineInterface) : (s.modLine f).msLeft = s.msLeft := rfl

@[simp] theorem State.alert_modLine (s : State) (f : LineInterface → LineInterface) : (s.modLine f).alert = s.alert := rfl

@[simp] theorem State.lampPhase_modLine (s : State) (f : LineInterface → LineInterface) : (s.modLine f).lampPhase = s.lampPhase := rfl

@[simp] theorem State.lampLeft_modLine (s : State) (f : LineInterface → LineInterface) : (s.modLine f).lampLeft = s.lampLeft := rfl

@[simp] theorem State.tie_modLine (s : State) (f : LineInterface → LineInterface) : (s.modLine f).tie = s.tie := rfl

@[simp] theorem State.pending_modLine (s : State) (f : LineInterface → LineInterface) : (s.modLine f).pending = s.pending := rfl

end Sys2Proof.Machine
end

