-- ==== Sys2Proof/Laws/Queue.lean ====
section
/-! SUPPORT. What the operations of the outgoing queue can do (07): posting, withdrawal, the settling of an
attempt, and the offer. -/

namespace Sys2Proof.Machine

/-! ### Rank order -/

theorem mem_insertByRank (e x : Entry) (q : List Entry) : x ∈ insertByRank e q ↔ x = e ∨ x ∈ q := by
  induction q with
  | nil => simp [insertByRank]
  | cons y rest ih =>
    unfold insertByRank
    split
    · simp
    · simp only [List.mem_cons, ih]
      tauto

theorem length_insertByRank (e : Entry) (q : List Entry) : (insertByRank e q).length = q.length + 1 := by
  induction q with
  | nil => rfl
  | cons y rest ih =>
    unfold insertByRank
    split
    · rfl
    · simp [ih]

theorem perm_insertByRank (e : Entry) (q : List Entry) : (insertByRank e q).Perm (e :: q) := by
  induction q with
  | nil => exact List.Perm.refl _
  | cons y rest ih =>
    unfold insertByRank
    split
    · exact List.Perm.refl _
    · exact (List.Perm.cons y ih).trans (List.Perm.swap e y rest)

/-- Adding an entry of a new rank keeps the rank order. -/
theorem sorted_insertByRank (e : Entry) (q : List Entry)
    (sorted : q.Pairwise (fun a b => a.frame.rank < b.frame.rank))
    (fresh : ∀ x ∈ q, x.frame.rank ≠ e.frame.rank) :
    (insertByRank e q).Pairwise (fun a b => a.frame.rank < b.frame.rank) := by
  induction q with
  | nil => simp [insertByRank]
  | cons y rest ih =>
    rw [List.pairwise_cons] at sorted
    unfold insertByRank
    split
    · rename_i before
      refine List.pairwise_cons.mpr ⟨?_, List.pairwise_cons.mpr sorted⟩
      intro a ha
      rcases List.mem_cons.mp ha with rfl | ha
      · exact before
      · exact before.trans (sorted.1 a ha)
    · rename_i notBefore
      refine List.pairwise_cons.mpr ⟨?_, ih sorted.2 (fun x hx => fresh x (List.mem_cons_of_mem _ hx))⟩
      intro a ha
      rcases (mem_insertByRank e a rest).mp ha with rfl | ha
      · have := fresh y List.mem_cons_self
        omega
      · exact sorted.1 a ha

/-- WHERE is read back from its code, so that two frames of one code have one WHERE. -/
theorem Where.code_injective {a b : Where} (h : a.code = b.code) : a = b := by
  obtain ⟨⟨g, hg⟩, ⟨d, hd⟩, al, st⟩ := a
  obtain ⟨⟨g', hg'⟩, ⟨d', hd'⟩, al', st'⟩ := b
  simp only [Where.code] at h
  have e1 : g = g' := by cases al <;> cases st <;> cases al' <;> cases st' <;> simp at h <;> omega
  have e2 : d = d' := by cases al <;> cases st <;> cases al' <;> cases st' <;> simp at h <;> omega
  subst e1
  subst e2
  cases al <;> cases st <;> cases al' <;> cases st' <;> simp at h ⊢ <;> omega

theorem Kind.code_injective {a b : Kind} (h : a.code = b.code) : a = b := by
  cases a <;> cases b <;> simp only [Kind.code] at h <;> first | rfl | omega | (congr 1; omega)

theorem Where.code_lt (w : Where) : w.code < 256 := by
  obtain ⟨⟨g, hg⟩, ⟨d, hd⟩, al, st⟩ := w
  cases al <;> cases st <;> simp [Where.code] <;> omega

/-- Two frames of one rank have one kind and one WHERE (R131). -/
theorem Post.rank_eq {a b : Post} (h : a.rank = b.rank) : a.kind = b.kind ∧ a.loc = b.loc := by
  have ha := Where.code_lt a.loc
  have hb := Where.code_lt b.loc
  have pa := a.prio.isLt
  have pb := b.prio.isLt
  simp only [Post.rank] at h
  exact ⟨Kind.code_injective (by omega), Where.code_injective (by omega)⟩

/-! ### Posting -/

/-- Outside RUN a posting is discarded (R132). -/
theorem State.post_outside_run (p : Post) {s : State} (h : s.mode ≠ .run) : s.post p = s := by
  unfold State.post
  rw [if_neg h]

/-- A posting moves the queue, and the RB district alone beside it. -/
theorem State.post_frame (p : Post) (s : State) :
    s.post p = { s with queue := s.queueWith p,
                        ramp := { s.ramp with rbDistrict := (s.post p).ramp.rbDistrict } } := by
  unfold State.post State.queueWith
  split <;> rfl

/-- The queue after a posting. -/
theorem State.queue_post (p : Post) (s : State) : (s.post p).queue = s.queueWith p := by
  rw [State.post_frame]

/-- The RB district stays, or becomes none by an overflow (R157). -/
theorem State.rbDistrict_post (p : Post) (s : State) :
    (s.post p).ramp.rbDistrict = s.ramp.rbDistrict ∨ (s.post p).ramp.rbDistrict = none := by
  unfold State.post
  split
  · dsimp only
    split
    · exact Or.inr rfl
    · exact Or.inl rfl
  · exact Or.inl rfl

@[simp] theorem State.districts_post (p : Post) (s : State) : (s.post p).districts = s.districts := by
  rw [State.post_frame]

@[simp] theorem State.engines_post (p : Post) (s : State) : (s.post p).engines = s.engines := by
  rw [State.post_frame]

@[simp] theorem State.relays_post (p : Post) (s : State) : (s.post p).relays = s.relays := by
  rw [State.post_frame]

@[simp] theorem State.mode_post (p : Post) (s : State) : (s.post p).mode = s.mode := by
  rw [State.post_frame]

@[simp] theorem State.halt_post (p : Post) (s : State) : (s.post p).halt = s.halt := by
  rw [State.post_frame]

@[simp] theorem State.line_post (p : Post) (s : State) : (s.post p).line = s.line := by
  rw [State.post_frame]

@[simp] theorem State.config_post (p : Post) (s : State) : (s.post p).config = s.config := by
  rw [State.post_frame]

@[simp] theorem State.list_post (p : Post) (s : State) : (s.post p).ramp.list = s.ramp.list := by
  rw [State.post_frame]

@[simp] theorem State.alert_post (p : Post) (s : State) : (s.post p).alert = s.alert := by
  rw [State.post_frame]

@[simp] theorem State.record_post (p : Post) (s : State) (k : District) :
    (s.post p).record k = s.record k := by
  unfold State.record
  rw [State.districts_post]

/-- A replaced entry keeps its standing with the transmitter (R133). -/
theorem Entry.isOnLine_replacedBy (e : Entry) (p : Post) : (e.replacedBy p).isOnLine = e.isOnLine := by
  cases e with
  | mk f ph => cases ph <;> rfl

/-- A posting takes its frame into the queue or leaves the queue as it was. -/
theorem mem_postInto (p : Post) (q : List Entry) :
    (∃ e ∈ (postInto p q).queue, e.frame = p) ∨ (postInto p q).queue = q := by
  unfold postInto
  split
  · rename_i e _
    exact Or.inl ⟨e.replacedBy p, (mem_insertByRank _ _ _).mpr (Or.inl rfl), rfl⟩
  · split
    · exact Or.inl ⟨p.waiting, (mem_insertByRank _ _ _).mpr (Or.inl rfl), rfl⟩
    · unfold overflowPost
      split
      · split
        · exact Or.inl ⟨p.waiting, (mem_insertByRank _ _ _).mpr (Or.inl rfl), rfl⟩
        · exact Or.inr rfl
      · exact Or.inr rfl

theorem length_dropTailWaiting {q : List Entry} {t : Entry} (h : tailWaiting q = some t) :
    (dropTailWaiting q).length + 1 = q.length := by
  induction q generalizing t with
  | nil => simp [tailWaiting] at h
  | cons x rest ih =>
    unfold tailWaiting at h
    unfold dropTailWaiting
    cases hr : tailWaiting rest with
    | some u =>
      dsimp only
      simp only [List.length_cons]
      rw [ih hr]
    | none =>
      rw [hr] at h
      dsimp only at h ⊢
      split at h
      · rename_i hw
        rw [if_pos hw]
        rfl
      · cases h

/-- The queue without its tail is a part of the queue, in its order. -/
theorem sublist_dropTailWaiting (q : List Entry) : (dropTailWaiting q).Sublist q := by
  induction q with
  | nil => exact List.Sublist.refl _
  | cons x rest ih =>
    unfold dropTailWaiting
    split
    · exact ih.cons_cons x
    · split
      · exact List.sublist_cons_self x rest
      · exact List.Sublist.refl _

/-- A posting never takes the queue above NQUEUE (R130). -/
theorem length_postInto (p : Post) {q : List Entry} (h : q.length ≤ Config.NQUEUE) :
    (postInto p q).queue.length ≤ Config.NQUEUE := by
  unfold postInto
  split
  · rename_i e found
    dsimp only
    rw [length_insertByRank]
    have hm := List.mem_of_find?_eq_some found
    have hp := List.find?_some found
    have : (q.filter (fun x => !p.replaces x.frame)).length < q.length := by
      refine List.length_filter_lt_length_iff_exists.mpr ⟨e, hm, ?_⟩
      simp [hp]
    omega
  · split
    · dsimp only
      rw [length_insertByRank]
      omega
    · unfold overflowPost
      split
      · rename_i ht
        split
        · dsimp only
          rw [length_insertByRank, length_dropTailWaiting ht]
          exact h
        · exact h
      · exact h

/-! ### Withdrawal -/

theorem State.withdraw_frame (kind : Kind) (k : District) (s : State) :
    s.withdraw kind k = { s with queue := s.queue.filterMap (Entry.withdrawnFor kind k) } := rfl

/-- What is left of the frames withdrawn is on the line and withdrawn (R137). -/
theorem State.withdraw_gone {kind : Kind} {k : District} {s : State} {e : Entry}
    (h : e ∈ (s.withdraw kind k).queue) (hk : e.frame.kind = kind) (hd : e.frame.loc.district = k) :
    e.phase = .onLine .withdrawn := by
  obtain ⟨x, _, hx⟩ := List.mem_filterMap.mp h
  unfold Entry.withdrawnFor at hx
  split at hx
  · cases hp : x.phase with
    | waiting =>
      rw [hp] at hx
      cases hx
    | onLine m =>
      rw [hp] at hx
      cases hx
      rfl
  · rename_i hne
    cases hx
    exact absurd ⟨hk, hd⟩ hne

/-- A withdrawal leaves every other frame as it was. -/
theorem State.withdraw_keeps {kind : Kind} {k : District} {s : State} {e : Entry} (h : e ∈ s.queue)
    (hne : ¬ (e.frame.kind = kind ∧ e.frame.loc.district = k)) : e ∈ (s.withdraw kind k).queue := by
  refine List.mem_filterMap.mpr ⟨e, h, ?_⟩
  unfold Entry.withdrawnFor
  rw [if_neg hne]

/-- Every entry after a withdrawal carries a frame that was there. -/
theorem State.withdraw_from {kind : Kind} {k : District} {s : State} {e : Entry}
    (h : e ∈ (s.withdraw kind k).queue) : ∃ x ∈ s.queue, x.frame = e.frame := by
  obtain ⟨x, hx, he⟩ := List.mem_filterMap.mp h
  refine ⟨x, hx, ?_⟩
  unfold Entry.withdrawnFor at he
  split at he
  · split at he
    · cases he
    · cases he
      rfl
  · cases he
    rfl

/-! ### The end of an attempt -/

theorem State.settleAttempt_frame (completed : Bool) (s : State) :
    s.settleAttempt completed = { s with queue := s.queue.filterMap (Entry.settled completed) } := rfl

/-- After an attempt every entry waits (R136). -/
theorem State.settleAttempt_waiting {completed : Bool} {s : State} {e : Entry}
    (h : e ∈ (s.settleAttempt completed).queue) : e.phase = .waiting := by
  obtain ⟨x, _, hx⟩ := List.mem_filterMap.mp h
  unfold Entry.settled at hx
  split at hx
  · rename_i hp
    cases hx
    exact hp
  · cases hx
  · cases hx
    rfl
  · split at hx
    · cases hx
    · cases hx
      rfl

/-- A waiting entry is not touched by the end of an attempt. -/
theorem State.settleAttempt_keeps {completed : Bool} {s : State} {e : Entry} (h : e ∈ s.queue)
    (hw : e.phase = .waiting) : e ∈ (s.settleAttempt completed).queue := by
  refine List.mem_filterMap.mpr ⟨e, h, ?_⟩
  unfold Entry.settled
  rw [hw]

/-! ### The offer -/

/-- The entry offered is one of the queue. -/
theorem mem_of_offered {eligible : Bool} {q : List Entry} {e : Entry} (h : offered eligible q = some e) :
    e ∈ q := by
  unfold offered at h
  split at h
  · cases h
  · split at h
    · exact List.mem_cons_of_mem _ (List.mem_of_mem_head? h)
    · cases h
      exact List.mem_cons_self

/-- A head that is no RB is offered, whether the station is eligible or not (R135). -/
theorem offered_head {e : Entry} (h : e.frame.kind ≠ .rb) (rest : List Entry) (eligible : Bool) :
    offered eligible (e :: rest) = some e := by
  exact if_neg (fun hc => h hc.1)

end Sys2Proof.Machine
end

