-- ==== Sys2Proof/Laws/District.lean ====
section
/-! SUPPORT. What the moves of a district can do (03, 04): each changes its own district, and beside the districts
only the queue, the ramp list unit and the ALERT latch; and the record each leaves. -/

namespace Sys2Proof.Machine

/-! ### The two frames -/

theorem State.sameOutsideDistricts_refl (s : State) : State.sameOutsideDistricts s s := rfl

theorem State.sameOutsideDistricts_trans {s t u : State} (h : State.sameOutsideDistricts s t)
    (h' : State.sameOutsideDistricts t u) : State.sameOutsideDistricts s u := by
  unfold State.sameOutsideDistricts at *
  rw [h] at h'
  exact h'

theorem State.halt_of_sameOutside {s t : State} (h : State.sameOutsideDistricts s t) : t.halt = s.halt := by
  unfold State.sameOutsideDistricts at h
  rw [h]

theorem State.mode_of_sameOutside {s t : State} (h : State.sameOutsideDistricts s t) : t.mode = s.mode := by
  unfold State.sameOutsideDistricts at h
  rw [h]

theorem State.config_of_sameOutside {s t : State} (h : State.sameOutsideDistricts s t) : t.config = s.config := by
  unfold State.sameOutsideDistricts at h
  rw [h]

theorem State.line_of_sameOutside {s t : State} (h : State.sameOutsideDistricts s t) : t.line = s.line := by
  unfold State.sameOutsideDistricts at h
  rw [h]

theorem State.handler_of_sameOutside {s t : State} (h : State.sameOutsideDistricts s t) : t.handler = s.handler := by
  unfold State.sameOutsideDistricts at h
  rw [h]

theorem State.supply_of_sameOutside {s t : State} (h : State.sameOutsideDistricts s t) : t.supply = s.supply := by
  unfold State.sameOutsideDistricts at h
  rw [h]

theorem State.pending_of_sameOutside {s t : State} (h : State.sameOutsideDistricts s t) : t.pending = s.pending := by
  unfold State.sameOutsideDistricts at h
  rw [h]

theorem State.onlyDistrict_refl (k : District) (s : State) : State.onlyDistrict k s s :=
  ⟨fun _ _ => ⟨rfl, rfl, rfl⟩, rfl⟩

theorem State.onlyDistrict_trans {k : District} {s t u : State} (h : State.onlyDistrict k s t)
    (h' : State.onlyDistrict k t u) : State.onlyDistrict k s u := by
  refine ⟨fun j hj => ?_, State.sameOutsideDistricts_trans h.2 h'.2⟩
  obtain ⟨a1, a2, a3⟩ := h.1 j hj
  obtain ⟨b1, b2, b3⟩ := h'.1 j hj
  exact ⟨b1.trans a1, b2.trans a2, b3.trans a3⟩

/-! ### The pieces of a move -/

theorem State.onlyDistrict_setRecord (k : District) (d : DistrictRecord) (s : State) :
    State.onlyDistrict k s (s.setRecord k d) :=
  ⟨fun _ hj => ⟨State.record_setRecord_other s hj d, rfl, rfl⟩, rfl⟩

theorem State.onlyDistrict_setEngine (k : District) (e : Engine) (s : State) :
    State.onlyDistrict k s (s.setEngine k e) :=
  ⟨fun _ hj => ⟨rfl, State.engine_setEngine_other s hj e, rfl⟩, rfl⟩

theorem State.onlyDistrict_setRelay (k : District) (r : Relay) (s : State) :
    State.onlyDistrict k s (s.setRelay k r) :=
  ⟨fun _ hj => ⟨rfl, rfl, State.relay_setRelay_other s hj r⟩, rfl⟩

theorem State.onlyDistrict_modRecord (k : District) (f : DistrictRecord → DistrictRecord) (s : State) :
    State.onlyDistrict k s (s.modRecord k f) := State.onlyDistrict_setRecord k _ s

theorem State.onlyDistrict_modRelay (k : District) (f : Relay → Relay) (s : State) :
    State.onlyDistrict k s (s.modRelay k f) := State.onlyDistrict_setRelay k _ s

theorem State.onlyDistrict_modRamp (k : District) (f : RampUnit → RampUnit) (s : State) :
    State.onlyDistrict k s (s.modRamp f) := ⟨fun _ _ => ⟨rfl, rfl, rfl⟩, rfl⟩

theorem State.onlyDistrict_withdraw (k j : District) (kind : Kind) (s : State) :
    State.onlyDistrict k s (s.withdraw kind j) := ⟨fun _ _ => ⟨rfl, rfl, rfl⟩, rfl⟩

theorem State.onlyDistrict_setAlert (k : District) (s : State) : State.onlyDistrict k s s.setAlert :=
  ⟨fun _ _ => ⟨rfl, rfl, rfl⟩, rfl⟩

theorem State.onlyDistrict_post (k : District) (p : Post) (s : State) : State.onlyDistrict k s (s.post p) := by
  rw [State.post_frame]
  exact ⟨fun _ _ => ⟨rfl, rfl, rfl⟩, rfl⟩

theorem State.onlyDistrict_depart (k : District) (s : State) : State.onlyDistrict k s (s.depart k) := by
  unfold State.depart
  cases (s.record k).state with
  | ramping => exact State.onlyDistrict_modRamp k _ s
  | queued => exact State.onlyDistrict_trans (State.onlyDistrict_withdraw k k .rb s) (State.onlyDistrict_modRamp k _ _)
  | contend => exact State.onlyDistrict_withdraw k k .fi s
  | halted => exact State.onlyDistrict_refl k s
  | dark => exact State.onlyDistrict_refl k s
  | live => exact State.onlyDistrict_refl k s
  | cooling => exact State.onlyDistrict_refl k s
  | probing => exact State.onlyDistrict_refl k s
  | switching => exact State.onlyDistrict_refl k s
  | locked => exact State.onlyDistrict_refl k s

/-- What leaving a state takes along is in the queue and in the ramp list unit alone. -/
theorem State.depart_frame (k : District) (s : State) :
    s.depart k = { s with queue := (s.depart k).queue, ramp := (s.depart k).ramp } := by
  unfold State.depart
  cases (s.record k).state <;> rfl

@[simp] theorem State.record_depart (k j : District) (s : State) : (s.depart k).record j = s.record j := by
  rw [State.depart_frame]
  rfl

@[simp] theorem State.engine_depart (k j : District) (s : State) : (s.depart k).engine j = s.engine j := by
  rw [State.depart_frame]
  rfl

@[simp] theorem State.relay_depart (k j : District) (s : State) : (s.depart k).relay j = s.relay j := by
  rw [State.depart_frame]
  rfl

/-! ### The move -/

theorem State.onlyDistrict_moveOff (k : District) (f : DistrictRecord → DistrictRecord) (s : State) :
    State.onlyDistrict k s (s.moveOff k f) :=
  State.onlyDistrict_trans
    (State.onlyDistrict_trans (State.onlyDistrict_depart k s) (State.onlyDistrict_setEngine k _ _))
    (State.onlyDistrict_modRecord k f _)

@[simp] theorem State.record_moveOff (k : District) (f : DistrictRecord → DistrictRecord) (s : State) :
    (s.moveOff k f).record k = f (s.record k) := by
  simp [State.moveOff]

@[simp] theorem State.engine_moveOff (k : District) (f : DistrictRecord → DistrictRecord) (s : State) :
    (s.moveOff k f).engine k = Engine.cleared := by
  simp [State.moveOff]

@[simp] theorem State.relay_moveOff (k j : District) (f : DistrictRecord → DistrictRecord) (s : State) :
    (s.moveOff k f).relay j = s.relay j := by
  simp [State.moveOff]

theorem State.queue_moveOff (k : District) (f : DistrictRecord → DistrictRecord) (s : State) :
    (s.moveOff k f).queue = (s.depart k).queue := rfl

theorem State.ramp_moveOff (k : District) (f : DistrictRecord → DistrictRecord) (s : State) :
    (s.moveOff k f).ramp = (s.depart k).ramp := rfl

theorem State.alert_moveOff (k : District) (f : DistrictRecord → DistrictRecord) (s : State) :
    (s.moveOff k f).alert = s.alert := by
  show (s.depart k).alert = s.alert
  rw [State.depart_frame]

/-! ### The moves, each of one district -/

theorem State.onlyDistrict_enterDark (k : District) (s : State) : State.onlyDistrict k s (s.enterDark k) :=
  State.onlyDistrict_moveOff k _ s

theorem State.onlyDistrict_enterQueued (k : District) (s : State) : State.onlyDistrict k s (s.enterQueued k) :=
  State.onlyDistrict_moveOff k _ s

theorem State.onlyDistrict_enterLive (k : District) (w : WatchKind) (s : State) :
    State.onlyDistrict k s (s.enterLive k w) := State.onlyDistrict_moveOff k _ s

theorem State.onlyDistrict_enterLocked (k : District) (s : State) : State.onlyDistrict k s (s.enterLocked k) :=
  State.onlyDistrict_trans (State.onlyDistrict_moveOff k _ s) (State.onlyDistrict_setAlert k _)

@[simp] theorem State.record_enterLocked (k : District) (s : State) :
    (s.enterLocked k).record k = (s.record k).toLocked := State.record_moveOff k _ s

theorem State.alert_enterLocked (k : District) (s : State) : (s.enterLocked k).alert = true := rfl

theorem State.onlyDistrict_lockForRelay (k : District) (s : State) :
    State.onlyDistrict k s (s.lockForRelay k) :=
  State.onlyDistrict_trans
    (State.onlyDistrict_trans (State.onlyDistrict_modRecord k _ s) (State.onlyDistrict_enterLocked k _))
    (State.onlyDistrict_post k _ _)

/-- A relay fault that locks: LOCKED with RELAY, n as it was (R85). -/
@[simp] theorem State.record_lockForRelay (k : District) (s : State) :
    (s.lockForRelay k).record k = { s.record k with lastFault := .relay }.toLocked := by
  simp [State.lockForRelay, State.postTr]

theorem State.onlyDistrict_enterProbing (k : District) (s : State) :
    State.onlyDistrict k s (s.enterProbing k) := by
  unfold State.enterProbing
  dsimp only
  split
  · exact State.onlyDistrict_trans (State.onlyDistrict_moveOff k _ s) (State.onlyDistrict_lockForRelay k _)
  · exact State.onlyDistrict_moveOff k _ s

theorem State.onlyDistrict_failWith (k : District) (fault : FaultKind) (n : Nat) (window : Bool) (s : State) :
    State.onlyDistrict k s (s.failWith k fault n window) := by
  unfold State.failWith
  dsimp only
  split
  · exact State.onlyDistrict_trans
      (State.onlyDistrict_trans (State.onlyDistrict_modRecord k _ s) (State.onlyDistrict_enterLocked k _))
      (State.onlyDistrict_post k _ _)
  · exact State.onlyDistrict_trans
      (State.onlyDistrict_trans (State.onlyDistrict_modRecord k _ s) (State.onlyDistrict_moveOff k _ _))
      (State.onlyDistrict_post k _ _)

/-- The record after a fault: LOCKED at NLOCK, else COOLING with the full tCOOL(n) (R43, R44, R47). -/
theorem State.record_failWith (k : District) (fault : FaultKind) (n : Nat) (window : Bool) (s : State) :
    (s.failWith k fault n window).record k =
      if Config.NLOCK ≤ n then { s.record k with lastFault := fault, n := n }.toLocked
      else { s.record k with lastFault := fault, n := n }.toCooling window := by
  unfold State.failWith
  dsimp only
  split <;> simp [State.postTr]

theorem State.onlyDistrict_pardonAtTrip (k : District) (s : State) :
    State.onlyDistrict k s (s.pardonAtTrip k) := by
  unfold State.pardonAtTrip
  split
  · exact State.onlyDistrict_modRecord k _ s
  · exact State.onlyDistrict_refl k s

theorem State.onlyDistrict_pardonOnIntent (k : District) (s : State) :
    State.onlyDistrict k s (s.pardonOnIntent k) := by
  unfold State.pardonOnIntent
  split
  · exact State.onlyDistrict_modRecord k _ s
  · exact State.onlyDistrict_refl k s

/-- An FI pardons the COOLING district whose window after the trip is open, and leaves any other (R87, R88). -/
theorem State.record_pardonOnIntent (k : District) (s : State) :
    (s.pardonOnIntent k).record k =
      if (s.record k).pardonable = true then (s.record k).pardon else s.record k := by
  unfold State.pardonOnIntent
  split
  · exact State.record_setRecord_self s k _
  · rfl

theorem State.onlyDistrict_tripLive (k : District) (fault : FaultKind) (s : State) :
    State.onlyDistrict k s (s.tripLive k fault) :=
  State.onlyDistrict_trans (State.onlyDistrict_failWith k _ _ _ s) (State.onlyDistrict_pardonAtTrip k _)

theorem State.onlyDistrict_tripRamp (k : District) (fault : FaultKind) (s : State) :
    State.onlyDistrict k s (s.tripRamp k fault) :=
  State.onlyDistrict_trans (State.onlyDistrict_failWith k _ _ _ s) (State.onlyDistrict_pardonAtTrip k _)

theorem State.onlyDistrict_countFailure (k : District) (fault : FaultKind) (s : State) :
    State.onlyDistrict k s (s.countFailure k fault) := State.onlyDistrict_failWith k _ _ _ s

theorem State.onlyDistrict_enterSwitching (k : District) (s : State) :
    State.onlyDistrict k s (s.enterSwitching k) :=
  State.onlyDistrict_trans (State.onlyDistrict_moveOff k _ s) (State.onlyDistrict_modRelay k _ _)

@[simp] theorem State.record_enterSwitching (k : District) (s : State) :
    (s.enterSwitching k).record k = (s.record k).toSwitching := by
  simp [State.enterSwitching]

@[simp] theorem State.relay_enterSwitching (k : District) (s : State) :
    (s.enterSwitching k).relay k = (s.relay k).switch := by
  simp [State.enterSwitching]

theorem State.onlyDistrict_enterContend (k : District) (origin : Origin) (s : State) :
    State.onlyDistrict k s (s.enterContend k origin) := by
  have cut : State.onlyDistrict k s
      (if (s.record k).state = .ramping then (s.moveOff k (DistrictRecord.toContend origin)).postRe k
        else s.moveOff k (DistrictRecord.toContend origin)) := by
    split
    · exact State.onlyDistrict_trans (State.onlyDistrict_moveOff k _ s) (State.onlyDistrict_post k _ _)
    · exact State.onlyDistrict_moveOff k _ s
  unfold State.enterContend
  dsimp only
  by_cases quiet : s.mode = .quiet
  · rw [if_pos quiet]
    exact State.onlyDistrict_trans cut (State.onlyDistrict_enterSwitching k _)
  · rw [if_neg quiet]
    exact State.onlyDistrict_trans cut (State.onlyDistrict_post k _ _)

theorem State.onlyDistrict_detectLive (k : District) (det : Detection) (s : State) :
    State.onlyDistrict k s (s.detectLive k det) := by
  unfold State.detectLive
  cases det with
  | hard =>
    dsimp only
    split
    · exact State.onlyDistrict_enterContend k _ s
    · exact State.onlyDistrict_tripLive k _ s
  | overload => exact State.onlyDistrict_tripLive k _ s
  | inrush => exact State.onlyDistrict_refl k s
  | early => exact State.onlyDistrict_enterContend k _ s

theorem State.onlyDistrict_detectRamping (k : District) (det : Detection) (s : State) :
    State.onlyDistrict k s (s.detectRamping k det) := by
  unfold State.detectRamping
  cases det with
  | hard =>
    dsimp only
    split
    · exact State.onlyDistrict_enterContend k _ s
    · exact State.onlyDistrict_tripRamp k _ s
  | overload => exact State.onlyDistrict_refl k s
  | inrush => exact State.onlyDistrict_trans (State.onlyDistrict_modRamp k _ s) (State.onlyDistrict_tripRamp k _ _)
  | early => exact State.onlyDistrict_refl k s

theorem State.onlyDistrict_probeVerdict (k : District) (v : Verdict) (s : State) :
    State.onlyDistrict k s (s.probeVerdict k v) := by
  unfold State.probeVerdict
  cases v with
  | clear => exact State.onlyDistrict_enterQueued k s
  | short =>
    dsimp only
    split
    · exact State.onlyDistrict_trans (State.onlyDistrict_modRecord k _ s) (State.onlyDistrict_enterContend k _ _)
    · exact State.onlyDistrict_countFailure k _ s

theorem State.onlyDistrict_exitByOrigin (k : District) (w : WatchKind) (s : State) :
    State.onlyDistrict k s (s.exitByOrigin k w) := by
  unfold State.exitByOrigin
  cases (s.record k).origin with
  | live => exact State.onlyDistrict_enterLive k w s
  | ramp => exact State.onlyDistrict_enterQueued k s
  | probe => exact State.onlyDistrict_enterProbing k s

theorem State.onlyDistrict_hearIntentInContend (k : District) (s : State) :
    State.onlyDistrict k s (s.hearIntentInContend k) := by
  unfold State.hearIntentInContend
  dsimp only
  split
  · exact State.onlyDistrict_trans (State.onlyDistrict_modRecord k _ s) (State.onlyDistrict_exitByOrigin k _ _)
  · exact State.onlyDistrict_refl k s

theorem State.onlyDistrict_confirmSwitching (k : District) (s : State) :
    State.onlyDistrict k s (s.confirmSwitching k) := by
  unfold State.confirmSwitching
  dsimp only
  split
  · exact State.onlyDistrict_trans
      (State.onlyDistrict_trans (State.onlyDistrict_modRelay k _ s) (State.onlyDistrict_modRecord k _ _))
      (State.onlyDistrict_enterDark k _)
  · split
    · exact State.onlyDistrict_trans
        (State.onlyDistrict_trans (State.onlyDistrict_modRelay k _ s) (State.onlyDistrict_modRelay k _ _))
        (State.onlyDistrict_countFailure k _ _)
    · exact State.onlyDistrict_trans
        (State.onlyDistrict_trans (State.onlyDistrict_modRelay k _ s) (State.onlyDistrict_modRecord k _ _))
        (State.onlyDistrict_exitByOrigin k _ _)

theorem State.onlyDistrict_leaveHalted (k : District) (s : State) :
    State.onlyDistrict k s (s.leaveHalted k) := by
  unfold State.leaveHalted
  dsimp only
  split
  · cases (s.record k).returnClass with
    | queue => exact State.onlyDistrict_enterQueued k s
    | cool => exact State.onlyDistrict_moveOff k _ s
    | probe => exact State.onlyDistrict_enterProbing k s
    | dark => exact State.onlyDistrict_enterDark k s
    | locked => exact State.onlyDistrict_enterLocked k s
  · exact State.onlyDistrict_refl k s

theorem State.onlyDistrict_settlePending (k : District) (cls : ReturnClass) (s : State) :
    State.onlyDistrict k s (s.settlePending k cls) := by
  unfold State.settlePending
  dsimp only
  split
  · exact State.onlyDistrict_modRecord k _ s
  · exact State.onlyDistrict_trans (State.onlyDistrict_modRecord k _ s) (State.onlyDistrict_leaveHalted k _)

theorem State.onlyDistrict_confirmPendingFlip (k : District) (s : State) :
    State.onlyDistrict k s (s.confirmPendingFlip k) :=
  State.onlyDistrict_trans
    (State.onlyDistrict_trans (State.onlyDistrict_modRelay k _ s) (State.onlyDistrict_modRecord k _ _))
    (State.onlyDistrict_settlePending k _ _)

theorem State.onlyDistrict_confirmRunsOut (k : District) (s : State) :
    State.onlyDistrict k s (s.confirmRunsOut k) := by
  unfold State.confirmRunsOut
  dsimp only
  split
  · exact State.onlyDistrict_trans (State.onlyDistrict_modRelay k _ s) (State.onlyDistrict_lockForRelay k _)
  · split
    · exact State.onlyDistrict_trans
        (State.onlyDistrict_trans
          (State.onlyDistrict_trans (State.onlyDistrict_modRelay k _ s) (State.onlyDistrict_modRecord k _ _))
          (State.onlyDistrict_setAlert k _))
        (State.onlyDistrict_settlePending k _ _)
    · exact State.onlyDistrict_refl k s

theorem State.onlyDistrict_relayFault (k : District) (s : State) :
    State.onlyDistrict k s (s.relayFault k) := by
  unfold State.relayFault
  dsimp only
  cases (s.record k).state with
  | locked => exact State.onlyDistrict_modRecord k _ s
  | halted =>
    dsimp only
    split
    · exact State.onlyDistrict_refl k s
    · exact State.onlyDistrict_modRecord k _ s
  | switching => exact State.onlyDistrict_refl k s
  | live => exact State.onlyDistrict_lockForRelay k s
  | ramping => exact State.onlyDistrict_lockForRelay k s
  | probing => exact State.onlyDistrict_lockForRelay k s
  | cooling => exact State.onlyDistrict_lockForRelay k s
  | queued => exact State.onlyDistrict_lockForRelay k s
  | contend => exact State.onlyDistrict_lockForRelay k s
  | dark => exact State.onlyDistrict_lockForRelay k s

theorem State.onlyDistrict_judgeReading (k : District) (s : State) :
    State.onlyDistrict k s (s.judgeReading k) := by
  unfold State.judgeReading
  dsimp only
  split
  · split
    · exact State.onlyDistrict_confirmSwitching k s
    · exact State.onlyDistrict_refl k s
  · split
    · split
      · exact State.onlyDistrict_confirmPendingFlip k s
      · exact State.onlyDistrict_refl k s
    · split
      · exact State.onlyDistrict_relayFault k s
      · exact State.onlyDistrict_refl k s

theorem State.onlyDistrict_cnfDelivered (k : District) (level : Level) (s : State) :
    State.onlyDistrict k s (s.cnfDelivered k level) := by
  unfold State.cnfDelivered
  split
  · dsimp only
    split
    · exact State.onlyDistrict_trans (State.onlyDistrict_modRelay k _ s) (State.onlyDistrict_modRelay k _ _)
    · exact State.onlyDistrict_trans (State.onlyDistrict_modRelay k _ s) (State.onlyDistrict_judgeReading k _)
  · exact State.onlyDistrict_refl k s

theorem State.onlyDistrict_release (k : District) (s : State) : State.onlyDistrict k s (s.release k) := by
  unfold State.release
  dsimp only
  split
  · split
    · exact State.onlyDistrict_trans (State.onlyDistrict_modRecord k _ s) (State.onlyDistrict_enterDark k _)
    · exact State.onlyDistrict_trans (State.onlyDistrict_modRecord k _ s) (State.onlyDistrict_enterProbing k _)
  · split
    · exact State.onlyDistrict_modRecord k _ s
    · exact State.onlyDistrict_refl k s

theorem State.onlyDistrict_holdSet (k : District) (s : State) : State.onlyDistrict k s (s.holdSet k) := by
  have dark (f : DistrictRecord → DistrictRecord) : State.onlyDistrict k s ((s.modRecord k f).enterDark k) :=
    State.onlyDistrict_trans (State.onlyDistrict_modRecord k f s) (State.onlyDistrict_enterDark k _)
  unfold State.holdSet
  dsimp only
  cases (s.record k).state with
  | halted => exact State.onlyDistrict_modRecord k _ s
  | switching => exact State.onlyDistrict_modRecord k _ s
  | ramping => exact State.onlyDistrict_trans (dark _) (State.onlyDistrict_post k _ _)
  | dark => exact State.onlyDistrict_modRecord k _ s
  | live => exact dark _
  | cooling => exact dark _
  | probing => exact dark _
  | queued => exact dark _
  | contend => exact dark _
  | locked => exact dark _

theorem State.onlyDistrict_holdClear (k : District) (s : State) : State.onlyDistrict k s (s.holdClear k) := by
  unfold State.holdClear
  dsimp only
  split
  · split
    · exact State.onlyDistrict_trans
        (State.onlyDistrict_trans (State.onlyDistrict_modRecord k _ s) (State.onlyDistrict_modRecord k _ _))
        (State.onlyDistrict_enterProbing k _)
    · split
      · exact State.onlyDistrict_trans (State.onlyDistrict_modRecord k _ s) (State.onlyDistrict_modRecord k _ _)
      · exact State.onlyDistrict_modRecord k _ s
  · exact State.onlyDistrict_refl k s

theorem State.onlyDistrict_completeRamp (k : District) (s : State) :
    State.onlyDistrict k s (s.completeRamp k) :=
  State.onlyDistrict_trans
    (State.onlyDistrict_trans (State.onlyDistrict_depart k s) (State.onlyDistrict_modRecord k _ _))
    (State.onlyDistrict_post k _ _)

theorem State.onlyDistrict_startRamp (k : District) (s : State) : State.onlyDistrict k s (s.startRamp k) :=
  State.onlyDistrict_trans (State.onlyDistrict_moveOff k _ s) (State.onlyDistrict_modRamp k _ _)

theorem State.onlyDistrict_enterHalted (k : District) (s : State) :
    State.onlyDistrict k s (s.enterHalted k) := by
  unfold State.enterHalted
  split
  · exact State.onlyDistrict_refl k s
  · dsimp only
    split
    · exact State.onlyDistrict_trans (State.onlyDistrict_moveOff k _ s) (State.onlyDistrict_post k _ _)
    · exact State.onlyDistrict_moveOff k _ s

theorem State.onlyDistrict_districtHearsIntent (own : Option District) (k : District) (s : State) :
    State.onlyDistrict k s (State.districtHearsIntent own k s) := by
  unfold State.districtHearsIntent
  split
  · exact State.onlyDistrict_enterSwitching k s
  · split
    · exact State.onlyDistrict_pardonOnIntent k s
    · exact State.onlyDistrict_trans (State.onlyDistrict_hearIntentInContend k s)
        (State.onlyDistrict_pardonOnIntent k _)

/-! ### The four districts in turn -/

/-- Four steps, each of its own district, leave everything outside the districts but the queue, the ramp list
unit and the latch. -/
theorem State.sameOutside_eachDistrict {f : District → State → State}
    (h : ∀ (k : District) (s : State), State.onlyDistrict k s (f k s)) (s : State) :
    State.sameOutsideDistricts s (s.eachDistrict f) :=
  State.sameOutsideDistricts_trans
    (State.sameOutsideDistricts_trans (State.sameOutsideDistricts_trans (h 0 s).2 (h 1 _).2) (h 2 _).2) (h 3 _).2

/-- Each district's record after the four steps comes from the one step that is its own, taken in a state with
its old record. -/
theorem State.record_eachDistrict {f : District → State → State}
    (h : ∀ (k : District) (s : State), State.onlyDistrict k s (f k s)) (s : State) (k : District) :
    ∃ u : State, u.record k = s.record k ∧ u.engine k = s.engine k ∧ u.relay k = s.relay k ∧
      State.sameOutsideDistricts s u ∧ (s.eachDistrict f).record k = (f k u).record k ∧
      (s.eachDistrict f).engine k = (f k u).engine k ∧ (s.eachDistrict f).relay k = (f k u).relay k := by
  have h0 := h 0 s
  have h1 := h 1 (f 0 s)
  have h2 := h 2 (f 1 (f 0 s))
  have h3 := h 3 (f 2 (f 1 (f 0 s)))
  have o1 := State.sameOutsideDistricts_trans h0.2 h1.2
  have o2 := State.sameOutsideDistricts_trans o1 h2.2
  have k0 (j : District) (hj : j ≠ 0) := h0.1 j hj
  have k1 (j : District) (hj : j ≠ 1) := h1.1 j hj
  have k2 (j : District) (hj : j ≠ 2) := h2.1 j hj
  have k3 (j : District) (hj : j ≠ 3) := h3.1 j hj
  unfold State.eachDistrict
  fin_cases k
  · have a := k1 0 (by decide)
    have b := k2 0 (by decide)
    have c := k3 0 (by decide)
    exact ⟨s, rfl, rfl, rfl, rfl, c.1.trans (b.1.trans a.1), c.2.1.trans (b.2.1.trans a.2.1),
      c.2.2.trans (b.2.2.trans a.2.2)⟩
  · have z := k0 1 (by decide)
    have b := k2 1 (by decide)
    have c := k3 1 (by decide)
    exact ⟨f 0 s, z.1, z.2.1, z.2.2, h0.2, c.1.trans b.1, c.2.1.trans b.2.1, c.2.2.trans b.2.2⟩
  · have z := k0 2 (by decide)
    have a := k1 2 (by decide)
    have c := k3 2 (by decide)
    exact ⟨f 1 (f 0 s), a.1.trans z.1, a.2.1.trans z.2.1, a.2.2.trans z.2.2, o1, c.1, c.2.1, c.2.2⟩
  · have z := k0 3 (by decide)
    have a := k1 3 (by decide)
    have b := k2 3 (by decide)
    exact ⟨f 2 (f 1 (f 0 s)), b.1.trans (a.1.trans z.1), b.2.1.trans (a.2.1.trans z.2.1),
      b.2.2.trans (a.2.2.trans z.2.2), o2, rfl, rfl, rfl⟩

end Sys2Proof.Machine
end

