-- ==== Sys2Proof/Laws/Unit.lean ====
section
/-! SUPPORT. What the ramp list unit's choice and direct start can do (08), and the halts (09): the causes, and
the districts that enter and leave HALTED. -/

namespace Sys2Proof.Machine

/-! ### The ramp list -/

@[simp] theorem State.list_addOwnEntry (k : District) (s : State) :
    (s.addOwnEntry k).ramp.list =
      s.ramp.list ++ [{ station := s.stationId, district := k, kind := .own }] := rfl

@[simp] theorem State.list_removeOwnEntry (k : District) (s : State) :
    (s.removeOwnEntry k).ramp.list = s.ramp.list.filter (fun e => !(e.isOwn && e.district == k)) := rfl

@[simp] theorem State.list_removePeerEntry (station : StationNumber) (k : District) (s : State) :
    (s.removePeerEntry station k).ramp.list =
      s.ramp.list.filter (fun e => !(e.isPeer && e.hasKey station k)) := rfl

/-- A removed own entry is no longer there. -/
theorem State.hasOwnEntry_removeOwnEntry (k : District) (s : State) :
    (s.removeOwnEntry k).hasOwnEntry k = false := by
  unfold State.hasOwnEntry
  rw [State.list_removeOwnEntry, List.any_eq_false]
  intro e he hown
  have h := (List.mem_filter.mp he).2
  rw [hown] at h
  cases h

/-- The least life is that of some entry, and no entry has less (R146). -/
theorem leastLife_le {list : List RampEntry} {life : Nat} (h : leastLife list = some life) :
    ∀ e ∈ list, ∀ l, e.life = some l → life ≤ l := by
  induction list generalizing life with
  | nil => intro e he; cases he
  | cons x rest ih =>
    intro e he l hl
    unfold leastLife at h
    cases hx : x.life with
    | none =>
      rw [hx] at h
      rcases List.mem_cons.mp he with rfl | hr
      · rw [hx] at hl
        cases hl
      · exact ih (by simpa using h) e hr l hl
    | some a =>
      rw [hx] at h
      cases hrest : leastLife rest with
      | none =>
        rw [hrest] at h
        cases h
        rcases List.mem_cons.mp he with rfl | hr
        · rw [hx] at hl
          cases hl
          exact Nat.le_refl _
        · exfalso
          clear ih he
          induction rest with
          | nil => cases hr
          | cons y more ih2 =>
            unfold leastLife at hrest
            cases hy : y.life <;> cases hm : leastLife more <;> rw [hy, hm] at hrest <;> simp at hrest
            rcases List.mem_cons.mp hr with rfl | hr
            · rw [hy] at hl
              cases hl
            · exact ih2 hm hr
      | some b =>
        rw [hrest] at h
        cases h
        rcases List.mem_cons.mp he with rfl | hr
        · rw [hx] at hl
          cases hl
          exact Nat.min_le_left _ _
        · exact (Nat.min_le_right _ _).trans (ih hrest e hr l hl)

/-- A list with a peer entry has a least life. -/
theorem leastLife_isSome {list : List RampEntry} {e : RampEntry} (he : e ∈ list) (h : e.life.isSome = true) :
    (leastLife list).isSome = true := by
  induction list with
  | nil => cases he
  | cons x rest ih =>
    unfold leastLife
    rcases List.mem_cons.mp he with rfl | hr
    · cases hx : e.life with
      | none =>
        rw [hx] at h
        cases h
      | some a => cases leastLife rest <;> rfl
    · have hl := ih hr
      cases hx : x.life <;> cases hrest : leastLife rest <;> rw [hrest] at hl <;> first | rfl | cases hl

theorem sublist_dropFirstOfLife (life : Nat) (list : List RampEntry) :
    (dropFirstOfLife life list).Sublist list := by
  induction list with
  | nil => exact List.Sublist.refl _
  | cons x rest ih =>
    unfold dropFirstOfLife
    split
    · exact List.sublist_cons_self x rest
    · exact ih.cons_cons x

/-- A recorded RB stands in the list with a fresh life, unless the list is full of own entries (R145, R146). -/
theorem length_recordPeerRamp (station : StationNumber) (k : District) {list : List RampEntry}
    (h : list.length ≤ Config.NLIST) : (recordPeerRamp station k list).length ≤ Config.NLIST := by
  unfold recordPeerRamp
  dsimp only
  split
  · rw [List.length_map]
    exact h
  · split
    · rw [List.length_append]
      exact Nat.succ_le_of_lt (by assumption)
    · cases hl : leastLife list with
      | none => exact h
      | some life =>
        dsimp only
        have shorter : ∀ (l : List RampEntry), leastLife l = some life → (dropFirstOfLife life l).length + 1 ≤ l.length := by
          intro l
          induction l with
          | nil => intro h0; cases h0
          | cons x rest ih =>
            intro h0
            unfold dropFirstOfLife
            split
            · exact Nat.le_refl _
            · rename_i hne
              unfold leastLife at h0
              cases hx : x.life with
              | none =>
                rw [hx] at h0
                have := ih (by simpa using h0)
                simp only [List.length_cons]
                omega
              | some a =>
                rw [hx] at h0
                cases hr : leastLife rest with
                | none =>
                  rw [hr] at h0
                  cases h0
                  exact absurd hx hne
                | some b =>
                  rw [hr] at h0
                  simp only [Option.some.injEq] at h0
                  have hb : b = life := by
                    rcases Nat.le_total a b with hab | hab
                    · rw [Nat.min_eq_left hab] at h0
                      subst h0
                      exact absurd hx hne
                    · rw [Nat.min_eq_right hab] at h0
                      exact h0
                  subst hb
                  have := ih hr
                  simp only [List.length_cons]
                  omega
        have := shorter list hl
        rw [List.length_append]
        simp only [List.length_singleton]
        omega

/-! ### The choice and the direct start -/

/-- The choice moves the queue, the RB district and the chosen district (R155, R156). -/
theorem State.chooseAgain_frame (s : State) :
    s.chooseAgain = { s with queue := s.chooseAgain.queue,
                             ramp := { s.ramp with chosen := s.chooseAgain.ramp.chosen,
                                                   rbDistrict := s.chooseAgain.ramp.rbDistrict } } := by
  unfold State.chooseAgain
  split
  · dsimp only
    split
    · rfl
    · split
      · rfl
      · rw [State.post_frame]
        rfl
  · rfl

theorem State.chooseAgain_outside_run {s : State} (h : s.mode ≠ .run) : s.chooseAgain = s := by
  unfold State.chooseAgain
  rw [if_neg h]

@[simp] theorem State.record_chooseAgain (s : State) (k : District) : s.chooseAgain.record k = s.record k := by
  rw [State.chooseAgain_frame]
  rfl

theorem State.sameOutside_chooseAgain (s : State) : State.sameOutsideDistricts s s.chooseAgain := by
  rw [State.chooseAgain_frame]

theorem State.directStart_outside_quiet {s : State} (h : s.mode ≠ .quiet) : s.directStart = s := by
  unfold State.directStart
  rw [if_neg (fun hc => h hc.1)]

theorem longestQueued_none_of_empty {s : State} (h : s.queuedDistricts = []) : s.longestQueued = none := by
  unfold State.longestQueued
  rw [h]
  rfl

/-- Where no start is owed, none is made (R161). -/
theorem State.directStart_of_noStartOwed {s : State} (h : s.NoStartOwed) : s.directStart = s := by
  unfold State.directStart
  split
  · rename_i hc
    have : s.queuedDistricts = [] := by
      by_contra hne
      exact h ⟨hc.1, hc.2.1, hc.2.2, hne⟩
    rw [longestQueued_none_of_empty this]
  · rfl

theorem State.sameOutside_directStart (s : State) : State.sameOutsideDistricts s s.directStart := by
  unfold State.directStart
  split
  · split
    · exact (State.onlyDistrict_startRamp _ s).2
    · rfl
  · rfl

theorem State.sameOutside_followUp (before s : State) :
    State.sameOutsideDistricts s (State.followUp before s) := by
  unfold State.followUp
  dsimp only
  split
  · exact State.sameOutside_directStart s
  · exact State.sameOutsideDistricts_trans (State.sameOutside_chooseAgain s) (State.sameOutside_directStart _)

/-- With the districts in QUEUED the same and no start owed, the ramp list unit does nothing more. -/
theorem State.followUp_settled {before s : State} (h : before.queuedDistricts = s.queuedDistricts)
    (hs : s.NoStartOwed) : State.followUp before s = s := by
  unfold State.followUp
  dsimp only
  rw [if_pos h]
  exact State.directStart_of_noStartOwed hs

/-- Outside QUIET what follows moves no district. -/
theorem State.record_followUp_outside_quiet (before : State) {s : State} (h : s.mode ≠ .quiet)
    (k : District) : (State.followUp before s).record k = s.record k := by
  unfold State.followUp
  dsimp only
  split
  · rw [State.directStart_outside_quiet h]
  · rw [State.directStart_outside_quiet (by rw [State.chooseAgain_frame]; exact h), State.record_chooseAgain]

/-- The longest waiting district is QUEUED (R155, R161). -/
theorem longestQueued_queued {s : State} {k : District} (h : s.longestQueued = some k) :
    (s.record k).state = .queued := by
  have step : ∀ (l : List District) (best : Option District),
      (∀ j, best = some j → (s.record j).state = .queued) → (∀ j ∈ l, (s.record j).state = .queued) →
      ∀ j, l.foldl (longerWait s) best = some j → (s.record j).state = .queued := by
    intro l
    induction l with
    | nil =>
      intro best hb _ j hj
      exact hb j hj
    | cons x rest ih =>
      intro best hb hl j hj
      refine ih (longerWait s best x) ?_ (fun y hy => hl y (List.mem_cons_of_mem _ hy)) j hj
      intro y hy
      unfold longerWait at hy
      split at hy
      · cases hy
        exact hl x List.mem_cons_self
      · split at hy
        · cases hy
          exact hl x List.mem_cons_self
        · cases hy
          exact hb y rfl
  refine step s.queuedDistricts none (fun j hj => by cases hj) ?_ k h
  intro j hj
  have := (List.mem_filter.mp hj).2
  simpa using this

/-! ### Halts -/

theorem State.sameOutside_beginHalt (s : State) : State.sameOutsideDistricts s s.beginHalt :=
  State.sameOutside_eachDistrict State.onlyDistrict_enterHalted s

theorem State.sameOutside_endHalt (s : State) : State.sameOutsideDistricts s s.endHalt :=
  State.sameOutside_eachDistrict State.onlyDistrict_leaveHalted s

/-- Setting a cause moves that cause, and beside it what a halt moves (R165). -/
theorem State.halt_setCause (c : HaltCause) (s : State) : (s.setCause c).halt = s.halt.put c true := by
  have marked : (if c = HaltCause.lineStop then
      ({ s with halt := s.halt.put c true }.emptyRampList).withdraw .rs 0
      else { s with halt := s.halt.put c true }).halt = s.halt.put c true := by
    split <;> rfl
  unfold State.setCause
  dsimp only
  by_cases h : s.halted = true
  · rw [if_pos h]
    exact marked
  · rw [if_neg h, State.halt_of_sameOutside (State.sameOutside_beginHalt _)]
    exact marked

theorem State.halt_clearCause (c : HaltCause) (s : State) : (s.clearCause c).halt = s.halt.put c false := by
  unfold State.clearCause
  dsimp only
  split
  · rw [State.halt_of_sameOutside (State.sameOutside_endHalt _)]
  · rfl

/-- The record of a district that a halt takes (R166 to R168). -/
theorem State.record_enterHalted (k : District) (s : State) (h : (s.record k).state ≠ .halted) :
    (s.enterHalted k).record k = (s.record k).toHalted := by
  unfold State.enterHalted
  rw [if_neg h]
  dsimp only
  split <;> simp [State.postRe]

/-- Once a halt begins every district is HALTED (R165). -/
theorem State.record_beginHalt_halted (s : State) (k : District) :
    (s.beginHalt.record k).state = .halted := by
  obtain ⟨u, hu, _, _, _, hr, _, _⟩ :=
    State.record_eachDistrict State.onlyDistrict_enterHalted s k
  show ((s.eachDistrict State.enterHalted).record k).state = .halted
  rw [hr]
  by_cases h : (u.record k).state = .halted
  · unfold State.enterHalted
    rw [if_pos h]
    exact h
  · rw [State.record_enterHalted k u h]
    rfl

end Sys2Proof.Machine
end

