-- ==== Sys2Proof/Laws/Line.lean ====
section
/-! SUPPORT. What the operations of the peer line and of the frame handler can do (05, 06): which move the line
interface alone, which the queue too, and what a complete frame comes to. -/

namespace Sys2Proof.Machine

/-! ### Operations of the line interface alone -/

/-- Only the line interface differs. -/
abbrev State.sameOutsideLine (s t : State) : Prop := t = { s with line := t.line }

theorem State.sameOutsideLine_trans {s t u : State} (h : State.sameOutsideLine s t)
    (h' : State.sameOutsideLine t u) : State.sameOutsideLine s u := by
  unfold State.sameOutsideLine at *
  rw [h] at h'
  exact h'

theorem State.sameOutsideLine_modLine (f : LineInterface → LineInterface) (s : State) :
    State.sameOutsideLine s (s.modLine f) := rfl

/-- Where the pin reads recessive the dominant timer is at 0, and else nothing moves (R108). -/
theorem State.freed_cases (s : State) :
    (s.lineLevel = .high ∧ s.freed = s.modLine LineInterface.recessive) ∨ (s.lineLevel = .low ∧ s.freed = s) := by
  unfold State.freed
  cases h : s.lineLevel
  · exact Or.inr ⟨rfl, if_neg (by decide)⟩
  · exact Or.inl ⟨rfl, if_pos rfl⟩

theorem State.sameOutsideLine_freed (s : State) : State.sameOutsideLine s s.freed := by
  unfold State.freed
  split <;> rfl

theorem State.sameOutsideLine_showLine (level : Level) (s : State) :
    State.sameOutsideLine s (s.showLine level) := by
  cases level
  · rfl
  · exact State.sameOutsideLine_trans (State.sameOutsideLine_modLine _ s) (State.sameOutsideLine_freed _)

theorem State.sameOutsideLine_releaseDriver (s : State) : State.sameOutsideLine s s.releaseDriver :=
  State.sameOutsideLine_trans (State.sameOutsideLine_modLine _ s) (State.sameOutsideLine_freed _)

/-- After a command that shows a level, the pin reads it: dominant wherever dominant is shown. -/
theorem State.lineLevel_showLow (s : State) : (s.showLine .low).lineLevel = .low := by
  unfold State.showLine
  dsimp only
  split
  · assumption
  · rfl

/-- Wherever a command shows the line dominant, the idle timer is at 0 (R94). -/
theorem State.idle_showLow (s : State) : (s.showLine .low).line.idle = 0 ∧ (s.showLine .low).line.idleSub = 0 := by
  unfold State.showLine
  dsimp only
  split <;> exact ⟨rfl, rfl⟩

/-- A second showing of the dominant level changes nothing. -/
theorem State.showLow_twice (s : State) : (s.showLine .low).showLine .low = s.showLine .low := by
  rw [State.showLine, if_pos (State.lineLevel_showLow s)]
  unfold State.showLine
  dsimp only
  split <;> rfl

/-- The pin that the driver has released reads recessive or dominant as the others have it, and the idle timer
counts from 0 (R94, R110). -/
theorem State.releaseDriver_line (s : State) :
    s.releaseDriver.line.driver = .off ∧ s.releaseDriver.line.idle = 0 ∧
      s.releaseDriver.line.breakInProgress = s.line.breakInProgress := by
  unfold State.releaseDriver
  rcases State.freed_cases (s.modLine (fun l => { l.notIdle with driver := .off })) with ⟨_, h⟩ | ⟨_, h⟩ <;>
    rw [h] <;> exact ⟨rfl, rfl, rfl⟩

theorem State.sameOutsideLine_awaitIdle (s : State) : State.sameOutsideLine s s.awaitIdle := rfl

theorem State.sameOutsideLine_edgeTaken (idle : Nat) (s : State) :
    State.sameOutsideLine s (s.edgeTaken idle) := by
  unfold State.edgeTaken
  split <;> rfl

theorem State.sameOutsideLine_fallingEdge (idle : Nat) (s : State) :
    State.sameOutsideLine s (s.fallingEdge idle) :=
  State.sameOutsideLine_trans
    (State.sameOutsideLine_trans (State.sameOutsideLine_showLine .low s) (State.sameOutsideLine_modLine _ _))
    (State.sameOutsideLine_edgeTaken idle _)

/-- At the end of a recessive stop slot a line that reads dominant has its idle timer at 0 (R94), and one that reads
recessive its dominant timer (R108). -/
theorem State.stopCounted_cases (raw : RawChar) (s : State) :
    State.sameOutsideLine s (s.stopCounted raw) ∧ (s.stopCounted raw).lineLevel = s.lineLevel ∧
      (s.lineLevel = .low → (s.stopCounted raw).line.idle = 0 ∧ (s.stopCounted raw).line.idleSub = 0) ∧
      (s.lineLevel = .high → (s.stopCounted raw).line.dominant = 0) := by
  unfold State.stopCounted
  split
  · rename_i high
    exact ⟨rfl, rfl, fun low => absurd (high.symm.trans low) (by decide), fun _ => rfl⟩
  · rename_i low
    exact ⟨rfl, rfl, fun _ => ⟨rfl, rfl⟩, fun high => absurd high low⟩

theorem State.sameOutsideLine_stopRecessive (raw : RawChar) (s : State) :
    State.sameOutsideLine s (s.stopRecessive raw) := by
  have shown : State.sameOutsideLine s (if s.fellAfterStop.isSome then s else s.showLine .high) := by
    split
    · rfl
    · exact State.sameOutsideLine_showLine .high s
  exact State.sameOutsideLine_trans shown (State.stopCounted_cases raw _).1

/-- After a character that ends in a dominant stop slot the line reads dominant, with its idle timer at 0 (R94). -/
theorem State.line_stopDominant (raw : RawChar) (s : State) :
    (s.stopDominant raw).lineLevel = .low ∧ (s.stopDominant raw).line.idle = 0 :=
  ⟨State.lineLevel_showLow s, (State.idle_showLow s).1⟩

theorem State.sameOutsideLine_characterHanded (raw : RawChar) (s : State) :
    State.sameOutsideLine s (s.characterHanded raw) := by
  unfold State.characterHanded
  split
  · rfl
  · split
    · rfl
    · split
      · exact State.sameOutsideLine_trans (State.sameOutsideLine_stopRecessive raw s)
          (State.sameOutsideLine_modLine _ _)
      · exact State.sameOutsideLine_trans
          (State.sameOutsideLine_trans (State.sameOutsideLine_showLine .low s) (State.sameOutsideLine_modLine _ _))
          (State.sameOutsideLine_modLine _ _)

theorem State.sameOutsideLine_startRecheck (level : Level) (s : State) :
    State.sameOutsideLine s (s.startRecheck level) := by
  have checked : State.sameOutsideLine s (s.recheckShown level) := by
    unfold State.recheckShown
    dsimp only
    split
    · exact State.sameOutsideLine_trans (State.sameOutsideLine_showLine level s) (State.sameOutsideLine_modLine _ _)
    · exact State.sameOutsideLine_showLine level s
  have shown : State.sameOutsideLine s (if s.mode = .selfTest then s else s.recheckShown level) := by
    split
    · rfl
    · exact checked
  unfold State.startRecheck
  dsimp only
  split
  · exact State.sameOutsideLine_trans shown (State.sameOutsideLine_modLine _ _)
  · exact shown

theorem State.sameOutsideLine_breakEnds (s : State) : State.sameOutsideLine s s.breakEnds :=
  State.sameOutsideLine_trans (State.sameOutsideLine_showLine .high s) (State.sameOutsideLine_modLine _ _)

/-! ### Attempts: the line interface and the queue -/

/-- Only the line interface and the queue differ. -/
abbrev State.sameOutsideAttempt (s t : State) : Prop := t = { s with line := t.line, queue := t.queue }

theorem State.sameOutsideAttempt_attempt (s : State) : State.sameOutsideAttempt s s.attempt := by
  unfold State.attempt
  split
  · dsimp only
    split <;> rfl
  · rfl

/-- Outside the conditions of R103 no attempt is made. -/
theorem State.attempt_barred {s : State} (h : s.mayAttempt = false) : s.attempt = s := by
  unfold State.attempt
  rw [if_neg (by rw [h]; exact Bool.false_ne_true)]

theorem State.sameOutsideAttempt_endAttempt (s : State) : State.sameOutsideAttempt s s.endAttempt := by
  unfold State.endAttempt
  split <;> rfl

/-- After the end of an attempt the transmitter is IDLE. -/
theorem State.tx_endAttempt (s : State) : s.endAttempt.line.tx = none := by
  unfold State.endAttempt
  split
  · rfl
  · rename_i h
    exact Option.not_isSome_iff_eq_none.mp h

/-- What is dropped of an abandoned frame stands in the line interface and the assembly (R111). -/
theorem State.onlyLine_dropLastCharacter (s : State) : State.onlyLine s s.dropLastCharacter := by
  unfold State.dropLastCharacter
  split <;> rfl

/-- The start of the break driver moves the line interface, the assembly and the queue alone (R110, R111). -/
theorem State.startBreakDriver_frame (s : State) :
    s.startBreakDriver = { s with line := s.startBreakDriver.line, handler := s.startBreakDriver.handler,
                                  queue := s.startBreakDriver.queue } := by
  have key : ∀ (u v : State) (f : LineInterface → LineInterface), State.onlyLine s u →
      State.sameOutsideAttempt u v →
      v.modLine f = { s with line := (v.modLine f).line, handler := (v.modLine f).handler,
                             queue := (v.modLine f).queue } := by
    intro u v f hu hv
    unfold State.onlyLine at hu
    unfold State.sameOutsideAttempt at hv
    rw [hu] at hv
    rw [hv]
    rfl
  exact key _ _ _ (State.onlyLine_dropLastCharacter s) (State.sameOutsideAttempt_endAttempt _)

/-- The start of the break driver: it drives, a break is in progress and nothing is sent (R110). -/
theorem State.startBreakDriver_line (s : State) :
    s.startBreakDriver.line.driver = .minimum 0 ∧ s.startBreakDriver.line.breakInProgress = true ∧
      s.startBreakDriver.line.tx = none := by
  refine ⟨rfl, rfl, ?_⟩
  exact State.tx_endAttempt s.dropLastCharacter

/-! ### Frame assembly -/

/-- A clean mark-1 character begins a frame wherever the handler stands (R98, R100). -/
theorem State.takeClean_mark (data : Byte) (s : State) :
    s.takeClean data true =
      { s.characterHanded (RawChar.ofClean data true) with handler := { held := [data], hunt := false } } := rfl

/-- A clean mark-0 character in hunt is handed over and ignored (R98). -/
theorem State.takeClean_hunt {s : State} (h : s.handler.hunt = true) (data : Byte) :
    s.takeClean data false = s.characterHanded (RawChar.ofClean data false) := by
  unfold State.takeClean
  dsimp only
  rw [if_neg Bool.false_ne_true, if_pos h]

theorem State.onlyLine_frameComplete (data : Byte) (s : State) : State.onlyLine s (s.frameComplete data) := by
  have h := State.sameOutsideLine_characterHanded (RawChar.ofClean data false) s
  unfold State.sameOutsideLine at h
  unfold State.onlyLine State.frameComplete
  rw [h]

/-! ### Complete frames -/

/-- A frame that the tests discard leaves all but the line and the assembly (R117 to R121). -/
theorem State.peerFrame_discarded {f : Frame} {s : State} (h : s.judge f = .discarded) :
    State.onlyLine s (s.peerFrame f) := by
  unfold State.peerFrame
  split
  · dsimp only
    rw [h]
    exact State.onlyLine_frameComplete _ s
  · rfl

theorem State.peerFrame_accepted {f : Frame} {s : State} (ha : s.assembles = true)
    (h : s.judge f = .accepted) :
    s.peerFrame f = State.followUp s ((s.frameComplete f.post.data).dispatchPeer f) := by
  unfold State.peerFrame
  rw [if_pos ha]
  dsimp only
  rw [h]

theorem State.peerFrame_duplicate {f : Frame} {s : State} (ha : s.assembles = true)
    (h : s.judge f = .duplicate) :
    s.peerFrame f = State.followUp s (s.frameComplete f.post.data).duplicateReport := by
  unfold State.peerFrame
  rw [if_pos ha]
  dsimp only
  rw [h]

/-- A sender with the station's own number is a duplicate, in LISTEN, RUN and QUIET (R117, R122). -/
theorem State.judge_duplicate {f : Frame} {s : State} {c : StationConfig} (hc : s.config = some c)
    (hs : f.sender = c.id) (hm : s.mode = .listen ∨ s.mode = .run ∨ s.mode = .quiet) :
    s.judge f = .duplicate := by
  unfold State.judge
  rcases hm with h | h | h <;> rw [h] <;> dsimp only <;> rw [hc] <;> exact if_pos hs

/-- The judgement of a frame of another station goes by its kind (R117, R119 to R121). -/
theorem State.judge_configured {f : Frame} {s : State} {c : StationConfig} (hc : s.config = some c)
    (hs : f.sender ≠ c.id) (hm : s.mode = .listen ∨ s.mode = .run ∨ s.mode = .quiet) :
    s.judge f = judgeKind s.mode c f := by
  unfold State.judge
  rcases hm with h | h | h <;> rw [h] <;> dsimp only <;> rw [hc] <;> exact if_neg hs

/-- A frame of the four characters of a frame is that frame (R114, R115). -/
theorem Frame.ofChars_chars {a b c d : Byte} (f : Frame) (h : f.chars = [a, b, c, d]) : Frame.ofChars a b c d = f := by
  obtain ⟨⟨kind, prio, loc, data⟩, sender⟩ := f
  simp only [Frame.chars, List.cons.injEq, and_true] at h
  obtain ⟨ha, hb, hc, hd⟩ := h
  subst ha hb hc hd
  have hkind : Kind.ofCode kind.code = kind := by
    cases kind with
    | unknown extra => fin_cases extra <;> rfl
    | fi => rfl
    | tr => rfl
    | re => rfl
    | rb => rfl
    | rs => rfl
    | hd => rfl
    | rl => rfl
    | sq => rfl
    | st => rfl
  have hcode : kind.code < 16 := by
    cases kind <;> simp only [Kind.code] <;> omega
  have hp := prio.isLt
  have hs := sender.isLt
  have hw : Where.ofByte loc.byte = loc := by
    obtain ⟨g, d, al, st⟩ := loc
    fin_cases g <;> fin_cases d <;> cases al <;> cases st <;> rfl
  have hhead : (Post.headByte { kind := kind, prio := prio, loc := loc, data := data }).toNat =
      16 * kind.code + prio.val := by
    simp only [Post.headByte, BitVec.toNat_ofNat]
    omega
  have hstation : (StationNumber.byte sender).toNat = sender.val := by
    simp only [StationNumber.byte, BitVec.toNat_ofNat]
    omega
  unfold Frame.ofChars
  rw [hhead, hstation, hw, show (16 * kind.code + prio.val) / 16 = kind.code by omega, hkind]
  congr 1
  · congr 1
    apply Fin.ext
    simp only [Fin.ofNat]
    omega
  · apply Fin.ext
    simp only [Fin.ofNat]
    omega

end Sys2Proof.Machine
end

