-- ==== Sys2Proof/Laws/PerInstr.lean ====
section
/-! SUPPORT. The lemmas that are made per command: what well-formedness says of each. -/

namespace Sys2Proof.Laws.WfMeaning

/-- A command is ill-formed exactly when it reports a character error on a character that is clean (R96,
R99). -/
def Statement (i : Instr) : Prop :=
  i.wf = false ↔ ∃ raw : RawChar, i = .characterError raw ∧ raw.status = .clean

/-- A command that is no character error and that passes the check. -/
theorem statement_of_passes {i : Instr} (passes : i.wf = true)
    (other : ∀ raw : RawChar, i ≠ .characterError raw) : Statement i := by
  constructor
  · intro h
    rw [passes] at h
    cases h
  · rintro ⟨raw, h, _⟩
    exact absurd h (other raw)

theorem reset : Statement .reset :=
  statement_of_passes rfl (fun _ h => nomatch h)

theorem strapReading (strap : Fin 6) (round : Fin 4) (code : Code) : Statement (.strapReading strap round code) :=
  statement_of_passes rfl (fun _ h => nomatch h)

theorem currentSample (k : District) (code : Code) : Statement (.currentSample k code) :=
  statement_of_passes rfl (fun _ h => nomatch h)

theorem supplySample (code : Code) : Statement (.supplySample code) :=
  statement_of_passes rfl (fun _ h => nomatch h)

theorem probePulseStart (k : District) : Statement (.probePulseStart k) :=
  statement_of_passes rfl (fun _ h => nomatch h)

theorem rawInputChange (pin : InputPin) (level : Level) : Statement (.rawInputChange pin level) :=
  statement_of_passes rfl (fun _ h => nomatch h)

theorem debounceExpiry (pin : InputPin) : Statement (.debounceExpiry pin) :=
  statement_of_passes rfl (fun _ h => nomatch h)

theorem breakDriveMinimumEnd : Statement .breakDriveMinimumEnd :=
  statement_of_passes rfl (fun _ h => nomatch h)

theorem coolingExpiry (k : District) : Statement (.coolingExpiry k) :=
  statement_of_passes rfl (fun _ h => nomatch h)

theorem settleWindowExpiry (k : District) : Statement (.settleWindowExpiry k) :=
  statement_of_passes rfl (fun _ h => nomatch h)

theorem rampKAdvance (k : District) : Statement (.rampKAdvance k) :=
  statement_of_passes rfl (fun _ h => nomatch h)

theorem rampCompletion (k : District) : Statement (.rampCompletion k) :=
  statement_of_passes rfl (fun _ h => nomatch h)

theorem contendTimeout (k : District) : Statement (.contendTimeout k) :=
  statement_of_passes rfl (fun _ h => nomatch h)

theorem confirmTimeout (k : District) : Statement (.confirmTimeout k) :=
  statement_of_passes rfl (fun _ h => nomatch h)

theorem flipWatchEnd (k : District) : Statement (.flipWatchEnd k) :=
  statement_of_passes rfl (fun _ h => nomatch h)

theorem yieldWatchEnd (k : District) : Statement (.yieldWatchEnd k) :=
  statement_of_passes rfl (fun _ h => nomatch h)

theorem chatterWindowExpiry (k : District) : Statement (.chatterWindowExpiry k) :=
  statement_of_passes rfl (fun _ h => nomatch h)

theorem pardonWindowEnd (k : District) : Statement (.pardonWindowEnd k) :=
  statement_of_passes rfl (fun _ h => nomatch h)

theorem millisecondTick : Statement .millisecondTick :=
  statement_of_passes rfl (fun _ h => nomatch h)

theorem peerEntryExpiry (station : StationNumber) (district : District) : Statement (.peerEntryExpiry station district) :=
  statement_of_passes rfl (fun _ h => nomatch h)

theorem floorExpiry : Statement .floorExpiry :=
  statement_of_passes rfl (fun _ h => nomatch h)

theorem holdoffEnd : Statement .holdoffEnd :=
  statement_of_passes rfl (fun _ h => nomatch h)

theorem lampPhaseAdvance : Statement .lampPhaseAdvance :=
  statement_of_passes rfl (fun _ h => nomatch h)

theorem selftestCharacter (raw : RawChar) : Statement (.selftestCharacter raw) :=
  statement_of_passes rfl (fun _ h => nomatch h)

theorem endOfSelftest : Statement .endOfSelftest :=
  statement_of_passes rfl (fun _ h => nomatch h)

theorem endOfListen : Statement .endOfListen :=
  statement_of_passes rfl (fun _ h => nomatch h)

theorem characterError (raw : RawChar) : Statement (.characterError raw) := by
  constructor
  · intro h
    refine ⟨raw, rfl, ?_⟩
    simpa [Instr.wf] using h
  · rintro ⟨raw', h, hs⟩
    cases h
    simp [Instr.wf, hs]

theorem shortError (head : Byte) : Statement (.shortError head) :=
  statement_of_passes rfl (fun _ h => nomatch h)

theorem idleGap : Statement .idleGap :=
  statement_of_passes rfl (fun _ h => nomatch h)

theorem idleBoundaryAttempt : Statement .idleBoundaryAttempt :=
  statement_of_passes rfl (fun _ h => nomatch h)

theorem join (idle : Fin 12) : Statement (.join idle) :=
  statement_of_passes rfl (fun _ h => nomatch h)

theorem arbitrationLoss : Statement .arbitrationLoss :=
  statement_of_passes rfl (fun _ h => nomatch h)

theorem driverFault : Statement .driverFault :=
  statement_of_passes rfl (fun _ h => nomatch h)

theorem breakDetected : Statement .breakDetected :=
  statement_of_passes rfl (fun _ h => nomatch h)

theorem breakEnd : Statement .breakEnd :=
  statement_of_passes rfl (fun _ h => nomatch h)

theorem fiFrame (b : FrameBody) : Statement (.fiFrame b) :=
  statement_of_passes rfl (fun _ h => nomatch h)

theorem trFrame (b : FrameBody) : Statement (.trFrame b) :=
  statement_of_passes rfl (fun _ h => nomatch h)

theorem reFrame (b : FrameBody) : Statement (.reFrame b) :=
  statement_of_passes rfl (fun _ h => nomatch h)

theorem rbFrame (b : FrameBody) : Statement (.rbFrame b) :=
  statement_of_passes rfl (fun _ h => nomatch h)

theorem rsFrame (b : FrameBody) : Statement (.rsFrame b) :=
  statement_of_passes rfl (fun _ h => nomatch h)

theorem hdFrame (b : FrameBody) : Statement (.hdFrame b) :=
  statement_of_passes rfl (fun _ h => nomatch h)

theorem rlFrame (b : FrameBody) : Statement (.rlFrame b) :=
  statement_of_passes rfl (fun _ h => nomatch h)

theorem sqFrame (b : FrameBody) : Statement (.sqFrame b) :=
  statement_of_passes rfl (fun _ h => nomatch h)

theorem stFrame (b : FrameBody) : Statement (.stFrame b) :=
  statement_of_passes rfl (fun _ h => nomatch h)

theorem unknownKindFrame (extra : Fin 7) (b : FrameBody) : Statement (.unknownKindFrame extra b) :=
  statement_of_passes rfl (fun _ h => nomatch h)

theorem ownFiCompletion : Statement .ownFiCompletion :=
  statement_of_passes rfl (fun _ h => nomatch h)

theorem ownRbCompletion : Statement .ownRbCompletion :=
  statement_of_passes rfl (fun _ h => nomatch h)

theorem ownTrCompletion : Statement .ownTrCompletion :=
  statement_of_passes rfl (fun _ h => nomatch h)

theorem ownFrameCompletion : Statement .ownFrameCompletion :=
  statement_of_passes rfl (fun _ h => nomatch h)

theorem cleanCharacter (data : Byte) (mark : Bool) : Statement (.cleanCharacter data mark) :=
  statement_of_passes rfl (fun _ h => nomatch h)

theorem lineFallingEdge (idle : Fin 12) : Statement (.lineFallingEdge idle) :=
  statement_of_passes rfl (fun _ h => nomatch h)

theorem startRecheck (level : Level) : Statement (.startRecheck level) :=
  statement_of_passes rfl (fun _ h => nomatch h)

end Sys2Proof.Laws.WfMeaning
end

