-- ==== Sys2Proof/Laws/Places.lean ====
section
/-! SUPPORT. What a posting leaves in a queue in order, in the words of R131 to R134: every clause of State.places,
for every frame. -/

namespace Sys2Proof.Machine

/-- The rank number orders frames as R131 does. -/
theorem Post.ranksAhead_iff (a b : Post) : a.ranksAhead b ↔ a.rank < b.rank := by
  have ha := Where.code_lt a.loc
  have hb := Where.code_lt b.loc
  have pa := a.prio.isLt
  have pb := b.prio.isLt
  have eq : a.prio = b.prio ↔ a.prio.val = b.prio.val := Fin.ext_iff
  have lt : a.prio < b.prio ↔ a.prio.val < b.prio.val := Fin.lt_def
  unfold Post.ranksAhead Post.rank
  rw [eq, lt]
  constructor
  · rintro (h | ⟨h, h' | ⟨h', h''⟩⟩) <;> omega
  · intro h
    omega

/-- The entries that a posting of p replaces. -/
abbrev Post.matchedBy (p : Post) (e : Entry) : Prop :=
  e.frame.kind = p.kind ∧ (e.frame.loc = p.loc ∨ p.kind = .rb)

theorem Post.replaces_iff (p : Post) (e : Entry) : p.replaces e.frame = true ↔ p.matchedBy e := by
  unfold Post.replaces Post.matchedBy
  simp only [Bool.and_eq_true, Bool.or_eq_true, beq_iff_eq]
  constructor
  · rintro ⟨h, h'⟩
    exact ⟨h.symm, h'.imp Eq.symm id⟩
  · rintro ⟨h, h'⟩
    exact ⟨h.symm, h'.imp Eq.symm id⟩

/-- Where no two entries have P together, at most one has it. -/
theorem length_filter_le_one {P : Entry → Bool} {q : List Entry}
    (h : q.Pairwise (fun a b => ¬ (P a = true ∧ P b = true))) : (q.filter P).length ≤ 1 := by
  induction q with
  | nil => exact Nat.zero_le 1
  | cons x rest ih =>
    obtain ⟨hx, hrest⟩ := List.pairwise_cons.mp h
    by_cases hp : P x = true
    · have none : rest.filter P = [] := by
        refine List.filter_eq_nil_iff.mpr (fun y hy hP => hx y hy ⟨hp, hP⟩)
      rw [List.filter_cons_of_pos hp, none]
      exact Nat.le_refl 1
    · rw [List.filter_cons_of_neg hp]
      exact ih hrest

/-- At most one entry of a queue in order is replaced (R132). -/
theorem State.length_replaced_le_one {s : State} (ok : s.QueueOk) (p : Post) :
    (s.queue.filter (fun e => p.replaces e.frame)).length ≤ 1 := by
  obtain ⟨_, _, distinct, oneRb, _⟩ := ok
  by_cases hp : p.kind = .rb
  · refine Nat.le_trans (List.Sublist.length_le ?_) oneRb
    refine List.monotone_filter_right s.queue ?_
    intro e he
    have := ((Post.replaces_iff p e).mp he).1
    rw [hp] at this
    simpa using this
  · refine length_filter_le_one (distinct.imp ?_)
    rintro a b hab ⟨ha, hb⟩
    obtain ⟨ka, la⟩ := (Post.replaces_iff p a).mp ha
    obtain ⟨kb, lb⟩ := (Post.replaces_iff p b).mp hb
    exact hab ⟨ka.trans kb.symm, (la.resolve_right hp).trans (lb.resolve_right hp).symm⟩

theorem eq_of_length_le_one {q : List Entry} (h : q.length ≤ 1) {a b : Entry} (ha : a ∈ q) (hb : b ∈ q) :
    a = b := by
  cases q with
  | nil => cases ha
  | cons x rest =>
    cases rest with
    | nil => rw [List.mem_singleton.mp ha, List.mem_singleton.mp hb]
    | cons y more =>
      simp only [List.length_cons] at h
      omega

/-- The last WAITING entry is in the queue. -/
theorem mem_of_tailWaiting {q : List Entry} {e : Entry} (h : tailWaiting q = some e) : e ∈ q := by
  induction q with
  | nil => cases h
  | cons x rest ih =>
    unfold tailWaiting at h
    split at h
    · rename_i t ht
      cases h
      exact List.mem_cons_of_mem _ (ih ht)
    · split at h
      · cases h
        exact List.mem_cons_self
      · cases h

theorem tailWaiting_none {q : List Entry} (h : tailWaiting q = none) : ∀ e ∈ q, e.phase ≠ .waiting := by
  induction q with
  | nil => intro e he; cases he
  | cons x rest ih =>
    unfold tailWaiting at h
    split at h
    · cases h
    · rename_i hn
      split at h
      · cases h
      · rename_i hx
        intro e he
        rcases List.mem_cons.mp he with rfl | he
        · exact hx
        · exact ih hn e he

/-- In rank order the last WAITING entry is the one that a WAITING entry behind which none stands (R131). -/
theorem tailWaiting_eq {q : List Entry} (sorted : q.Pairwise (fun a b => a.frame.rank < b.frame.rank))
    {last : Entry} (hm : last ∈ q) (hw : last.phase = .waiting)
    (hl : ∀ x ∈ q, x.phase = .waiting → x.frame.rank ≤ last.frame.rank) : tailWaiting q = some last := by
  induction q with
  | nil => cases hm
  | cons x rest ih =>
    obtain ⟨hx, hrest⟩ := List.pairwise_cons.mp sorted
    unfold tailWaiting
    rcases List.mem_cons.mp hm with rfl | hm
    · have none : tailWaiting rest = none := by
        cases ht : tailWaiting rest with
        | none => rfl
        | some t =>
          have ht' := mem_of_tailWaiting ht
          have behind := hx t ht'
          have wt : t.phase = .waiting := by
            clear ih hm hl hx behind ht' hrest sorted hw
            induction rest with
            | nil => cases ht
            | cons y more ih =>
              unfold tailWaiting at ht
              split at ht
              · rename_i u hu
                cases ht
                exact ih hu
              · split at ht
                · rename_i hy
                  cases ht
                  exact hy
                · cases ht
          have := hl t (List.mem_cons_of_mem _ ht') wt
          omega
      rw [none]
      dsimp only
      rw [if_pos hw]
    · rw [ih hrest hm (fun y hy => hl y (List.mem_cons_of_mem _ hy))]

/-- The queue without its tail holds the other entries. -/
theorem mem_dropTailWaiting {q : List Entry} {last : Entry} (h : tailWaiting q = some last)
    (sorted : q.Pairwise (fun a b => a.frame.rank < b.frame.rank)) (x : Entry) :
    x ∈ dropTailWaiting q ↔ x ∈ q ∧ x ≠ last := by
  induction q with
  | nil => cases h
  | cons y rest ih =>
    obtain ⟨hy, hrest⟩ := List.pairwise_cons.mp sorted
    unfold tailWaiting at h
    unfold dropTailWaiting
    cases ht : tailWaiting rest with
    | some t =>
      rw [ht] at h
      cases h
      dsimp only
      have below := hy last (mem_of_tailWaiting ht)
      rw [List.mem_cons, List.mem_cons, ih ht hrest]
      constructor
      · rintro (rfl | ⟨hm, hne⟩)
        · exact ⟨Or.inl rfl, fun e => by rw [e] at below; exact Nat.lt_irrefl _ below⟩
        · exact ⟨Or.inr hm, hne⟩
      · rintro ⟨rfl | hm, hne⟩
        · exact Or.inl rfl
        · exact Or.inr ⟨hm, hne⟩
    | none =>
      rw [ht] at h
      dsimp only at h ⊢
      split at h
      · rename_i hw
        cases h
        rw [if_pos hw, List.mem_cons]
        constructor
        · intro hm
          exact ⟨Or.inr hm, fun e => by subst e; exact Nat.lt_irrefl _ (hy _ hm)⟩
        · rintro ⟨rfl | hm, hne⟩
          · exact absurd rfl hne
          · exact hm
      · cases h

/-- A posting to a queue in order places its frame as R132 to R134 have it; an RB that it sheds is told (R157). -/
theorem State.places_of_post {s t : State} {p : Post} (ok : s.QueueOk) (queue : t.queue = s.queueWith p)
    (told : (s.post p).ramp.rbDistrict = none → t.ramp.rbDistrict = none) : s.places p t := by
  refine ⟨queue, ?_, ?_⟩
  · intro hm
    rw [queue]
    unfold State.queueWith
    rw [if_neg hm]
  intro hm
  have one := State.length_replaced_le_one ok p
  obtain ⟨_, sorted, _⟩ := ok
  have q' : t.queue = (postInto p s.queue).queue := by
    rw [queue]
    unfold State.queueWith
    rw [if_pos hm]
  have lost : (postInto p s.queue).rbLost = true → t.ramp.rbDistrict = none := by
    intro h
    apply told
    unfold State.post
    rw [if_pos hm]
    dsimp only
    rw [if_pos h]
  have inOrder : ∀ {q : List Entry}, q.Pairwise (fun a b => a.frame.rank < b.frame.rank) →
      q.Pairwise (fun a b => a.frame.ranksAhead b.frame) :=
    fun h => h.imp (fun {a b} hab => (Post.ranksAhead_iff a.frame b.frame).mpr hab)
  have freshRank : ∀ {q : List Entry}, (∀ x ∈ q, x ∈ s.queue ∧ ¬ p.matchedBy x) →
      ∀ x ∈ q, x.frame.rank ≠ p.rank := by
    intro q h x hx e
    obtain ⟨hk, hl⟩ := Post.rank_eq e
    exact (h x hx).2 ⟨hk, Or.inl hl⟩
  have split : (s.queue.filter (fun x => p.replaces x.frame)).length +
      (s.queue.filter (fun x => !p.replaces x.frame)).length = s.queue.length := by
    have := (List.filter_append_perm (fun x : Entry => p.replaces x.frame) s.queue).length_eq
    rw [List.length_append] at this
    exact this
  unfold postInto at q' lost
  cases hf : s.queue.find? (fun e => p.replaces e.frame) with
  | some e =>
    rw [hf] at q' lost
    dsimp only at q' lost
    have he : e ∈ s.queue := List.mem_of_find?_eq_some hf
    have hr : p.replaces e.frame = true := List.find?_some (p := fun e : Entry => p.replaces e.frame) hf
    have only : ∀ x ∈ s.queue, p.matchedBy x → x = e := by
      intro x hx hxm
      have hx' : x ∈ s.queue.filter (fun e => p.replaces e.frame) :=
        List.mem_filter.mpr ⟨hx, (Post.replaces_iff p x).mpr hxm⟩
      have he' : e ∈ s.queue.filter (fun e => p.replaces e.frame) := List.mem_filter.mpr ⟨he, hr⟩
      exact eq_of_length_le_one one hx' he'
    have kept : ∀ x : Entry, x ∈ s.queue.filter (fun x => !p.replaces x.frame) ↔
        x ∈ s.queue ∧ ¬ p.matchedBy x := by
      intro x
      rw [List.mem_filter, ← Post.replaces_iff]
      simp
    have frame : (e.replacedBy p).frame = p := rfl
    refine ⟨?_, ?_, ?_, ?_⟩
    · rw [q']
      refine inOrder (sorted_insertByRank _ _ (sorted.filter _) ?_)
      rw [frame]
      exact freshRank (fun x hx => (kept x).mp hx)
    · intro x hx hxm
      cases only x hx hxm
      have len : 1 ≤ (s.queue.filter (fun x => p.replaces x.frame)).length :=
        List.length_pos_of_mem (List.mem_filter.mpr ⟨he, hr⟩)
      refine ⟨?_, ?_, ?_, ?_⟩
      · rw [q', length_insertByRank]
        omega
      · intro y hy hym
        rw [q', mem_insertByRank]
        exact Or.inr ((kept y).mpr ⟨hy, hym⟩)
      · intro hw
        rw [q', mem_insertByRank]
        left
        unfold Entry.replacedBy
        rw [hw]
      · intro hw
        rw [q', mem_insertByRank]
        left
        unfold Entry.replacedBy
        cases hph : e.phase with
        | waiting => exact absurd hph hw
        | onLine m => rfl
    · intro h
      exact absurd ((Post.replaces_iff p e).mp hr) (h e he)
    · intro h
      exact absurd ((Post.replaces_iff p e).mp hr) (h e he)
  | none =>
    rw [hf] at q' lost
    dsimp only at q' lost
    have fresh : ∀ x ∈ s.queue, ¬ p.matchedBy x := by
      intro x hx hxm
      exact (List.find?_eq_none.mp hf x hx) ((Post.replaces_iff p x).mpr hxm)
    have freshAll : ∀ x ∈ s.queue, x.frame.rank ≠ p.rank := freshRank (fun x hx => ⟨hx, fresh x hx⟩)
    by_cases hlen : s.queue.length < Config.NQUEUE
    · rw [if_pos hlen] at q'
      dsimp only at q'
      refine ⟨?_, ?_, ?_, ?_⟩
      · rw [q']
        exact inOrder (sorted_insertByRank _ _ sorted freshAll)
      · intro x hx hxm
        exact absurd hxm (fresh x hx)
      · intro _ _
        refine ⟨?_, ?_, ?_⟩
        · rw [q', length_insertByRank]
        · intro x hx
          rw [q', mem_insertByRank]
          exact Or.inr hx
        · rw [q', mem_insertByRank]
          exact Or.inl rfl
      · intro _ h8
        exact absurd h8 (Nat.ne_of_lt hlen)
    · rw [if_neg hlen] at q' lost
      unfold overflowPost at q' lost
      cases htail : tailWaiting s.queue with
      | none =>
        rw [htail] at q'
        dsimp only at q'
        refine ⟨?_, ?_, ?_, ?_⟩
        · rw [q']
          exact inOrder sorted
        · intro x hx hxm
          exact absurd hxm (fresh x hx)
        · intro _ h
          exact absurd h hlen
        · intro _ _ last hl hw
          exact absurd hw (tailWaiting_none htail last hl)
      | some tail =>
        rw [htail] at q' lost
        dsimp only at q' lost
        refine ⟨?_, ?_, ?_, ?_⟩
        · rw [q']
          split
          · refine inOrder (sorted_insertByRank _ _ (sorted.sublist (sublist_dropTailWaiting _)) ?_)
            intro x hx
            exact freshAll x ((sublist_dropTailWaiting _).subset hx)
          · exact inOrder sorted
        · intro x hx hxm
          exact absurd hxm (fresh x hx)
        · intro _ h
          exact absurd h hlen
        · intro _ h8 last hl hw behind
          have same : tail = last := by
            have := tailWaiting_eq sorted hl hw (fun x hx hxw => by
              have := behind x hx hxw
              rw [Post.ranksAhead_iff] at this
              omega)
            rw [htail] at this
            exact Option.some.inj this
          subst same
          refine ⟨?_, ?_⟩
          · intro h
            rw [Post.ranksAhead_iff] at h
            rw [q', if_neg (by omega)]
          · intro h
            rw [Post.ranksAhead_iff] at h
            rw [if_pos h] at q' lost
            dsimp only at q' lost
            have len := length_dropTailWaiting htail
            refine ⟨?_, ?_, ?_, ?_, ?_⟩
            · rw [q', length_insertByRank]
              omega
            · rw [q', mem_insertByRank]
              exact Or.inl rfl
            · rw [q', mem_insertByRank]
              rintro (e | hm')
              · rw [e] at h
                exact Nat.lt_irrefl _ h
              · exact ((mem_dropTailWaiting htail sorted _).mp hm').2 rfl
            · intro x hx hne
              rw [q', mem_insertByRank]
              exact Or.inr ((mem_dropTailWaiting htail sorted x).mpr ⟨hx, hne⟩)
            · intro hk
              exact lost (by rw [hk]; rfl)

end Sys2Proof.Machine
end

