-- ==== Sys2Proof/Tests/Slice0.lean ====
section
/-! SUPPORT. The model's own tests: the check of WellFormed, the worked figures of spec/ on single commands, and for
each statement with hypotheses a concrete state and operands that meet them all. -/

namespace Sys2Proof.Tests

open Sys2Proof.Machine

set_option Elab.async false

/-! ### Small states -/

/-- The configuration of the card of station 58 (10 "decoding a card"): L = 2500 mA, districts 1 and 2 reversing. -/
def card : StationConfig := { id := 58, group := 3, budget := 2, trip := 3, rev := 6 }

/-- A district of the given kind in the given state, all else as at reset. -/
def inState (reversing : Bool) (st : DistrictState) : DistrictRecord :=
  { DistrictRecord.reset with state := st, reversing := reversing }

/-- A relay that stands where POLk has it. -/
def standing : Relay := { Relay.reset with pol := some .low, cnf := some .low }

/-- Station 58 in RUN, its four districts LIVE, the line idle, nothing pending. -/
def station : State :=
  { State.reset with
    mode := .run, config := some card, converter := .scan 0 0,
    halt := { start := false, lineStop := false, supply := false },
    supply := { lowRun := 0, highRun := 40, present := true },
    districts := { d0 := inState false .live, d1 := inState true .live, d2 := inState true .live,
                   d3 := inState false .live },
    relays := PerDistrict.all standing,
    line := { LineInterface.reset false with idle := 11, rx := { Receiver.reset with phase := .ready } },
    handler := { held := [], hunt := false } }

/-- The station with district k's record changed. -/
def having (k : District) (f : DistrictRecord → DistrictRecord) : State := station.modRecord k f

/-- The station with district k in a state. -/
def standingIn (k : District) (st : DistrictState) : State := having k (fun d => { d with state := st })

/-- The station with the engine of district k at this excess and hard run. -/
def loaded (k : District) (excess hardRun : Nat) : State :=
  station.setEngine k { excess := excess, hardRun := hardRun, probe := none }

/-- District k RAMPING at this k, with its own entry. -/
def ramping (k : District) (at64 : Nat) : State :=
  (having k (fun d => { d with state := .ramping, k := at64 })).addOwnEntry k

/-- District k in the pulse of a probe. -/
def pulsing (k : District) (taken sum : Nat) : State :=
  (having k (fun d => { d with state := .probing, phase := .pulse })).setEngine k
    { excess := 0, hardRun := 0, probe := some { taken := taken, sum := sum } }

/-- The station in QUIET. -/
def quiet : State := { station with mode := .quiet }

/-- The station halted by LINE_STOP, its districts HALTED with this return class. -/
def stopped (cls : ReturnClass) : State :=
  { station with
    halt := { start := false, lineStop := true, supply := false },
    districts := station.districts.map (fun d => { d with state := .halted, returnClass := cls }) }

/-- The station with input `pin` about to settle on this level after that one. -/
def pressing (s : State) (pin : InputPin) (before : Option Level) (raw : Level) : State :=
  s.setQualifier pin { settled := before, held := some (debounceTime pin), raw := raw }

/-- A frame of another station, number 40, of the same group. -/
def body (k : District) (data : Byte) : FrameBody :=
  { prio := 0, sender := 40, loc := { group := 3, district := k, all := false, set := false }, data := data }

/-- The station sending this frame, at its end, with its entry ON_LINE. -/
def sending (p : Post) (s : State) : State :=
  { s with queue := [{ frame := p, phase := .onLine .none }],
           line := { s.line with tx := some { frame := p.copyFrom 58, char := 3, t := 192 } } }

/-- The state after a command; unchanged where none follows. -/
def after (c : Instr) (s : State) : State :=
  match exec c s with
  | .next t => t
  | .fault _ => s
  | .refused _ => s

/-- The frames in the queue. -/
def posted (s : State) : List Post := s.queue.map (fun e => e.frame)

/-! ### WellFormed -/

/-- A character error that carries a clean character is refused. -/
theorem test_clean_character_error_is_ill_formed :
    Instr.wf (.characterError (RawChar.ofClean 0x3C#8 true)) = false := by decide

theorem test_parity_error_is_well_formed :
    Instr.wf (.characterError { data := 0x3C#8, mark := true, parity := true, stop := true }) = true := by decide

theorem test_framing_error_is_well_formed :
    Instr.wf (.characterError { data := 0x3C#8, mark := true, parity := false, stop := false }) = true := by decide

/-! ### Characters and frames (05, 06) -/

/-- HEAD of an RB with nibble 12 is 0011 1100; with its mark it holds an odd count already (05 5.2). -/
theorem test_parity_of_rb_head : parityBit 0x3C#8 true = false := by decide

/-- The characters of the TR of district 1 of station 40 (06 "one frame as built"). -/
theorem test_frame_as_built :
    Frame.chars { post := { kind := .tr, prio := 0, loc := ⟨3, 1, false, false⟩, data := 0x32#8 },
                  sender := 40 } = [0x10#8, 0x28#8, 0x34#8, 0x32#8] := by decide

theorem test_frame_read_back :
    Frame.ofChars 0x10#8 0x28#8 0x34#8 0x32#8 =
      { post := { kind := .tr, prio := 0, loc := ⟨3, 1, false, false⟩, data := 0x32#8 }, sender := 40 } := by
  decide

/-- R93: the mark is 1 on HEAD alone; the twelve slots of a character stand in the order of R92. -/
theorem test_slots_of_character :
    (RawChar.ofClean 0x10#8 true).slots.map Level.bit =
      [false, false, false, false, true, false, false, false, false, true, true, true] := by decide

/-! ### Start-up (10) -/

/-- The 23 readings of the card of station 58 that come before the last one. -/
def cardReadings (str3round2 : Code) : List Reading :=
  [⟨0, 0, 230⟩, ⟨1, 0, 690⟩, ⟨2, 0, 222⟩, ⟨3, 0, 95⟩, ⟨4, 0, 226⟩, ⟨5, 0, 414⟩,
   ⟨0, 1, 229⟩, ⟨1, 1, 689⟩, ⟨2, 1, 223⟩, ⟨3, 1, 96⟩, ⟨4, 1, 226⟩, ⟨5, 1, 415⟩,
   ⟨0, 2, 231⟩, ⟨1, 2, 691⟩, ⟨2, 2, 222⟩, ⟨3, 2, str3round2⟩, ⟨4, 2, 226⟩, ⟨5, 2, 414⟩,
   ⟨0, 3, 230⟩, ⟨1, 3, 690⟩, ⟨2, 3, 221⟩, ⟨3, 3, 95⟩, ⟨4, 3, 226⟩]

def beforeLast (str3round2 : Code) : State := { State.reset with readings := cardReadings str3round2 }

theorem test_card_of_station_58 :
    (after (.strapReading 5 3 414) (beforeLast 95)).config = some card := by decide +kernel

/-- A reading in the guard zone (remainder 57): STRAP_FAULT with the latch set. -/
theorem test_guard_zone_refuses :
    (after (.strapReading 5 3 414) (beforeLast 121)).mode = .strapFault ∧
    (after (.strapReading 5 3 414) (beforeLast 121)).alert = true := by decide +kernel

theorem test_reset_leaves_straps : after .reset station = { State.reset with
    line := LineInterface.reset false } := by decide +kernel

/-- The station in SELFTEST. -/
def testing : State := { station with
  mode := .selfTest, halt := { start := true, lineStop := false, supply := true },
  selfTest := { handed := 0, matched := true, left := some 800 } }

/-- The first character of the self-test frame of station 58 is 1000 0000 with mark 1 (R185). -/
theorem test_selftest_character :
    (after (.selftestCharacter (RawChar.ofClean 0x80#8 true)) testing).selfTest.matched = true ∧
    (after (.selftestCharacter (RawChar.ofClean 0x81#8 true)) testing).selfTest.matched = false := by
  decide +kernel

theorem test_end_of_selftest_with_too_few :
    (after .endOfSelftest testing).selfTestNote = true ∧ (after .endOfSelftest testing).mode = .listen := by
  decide +kernel

/-- The station in LISTEN, halted for START. -/
def listening : State :=
  { stopped .queue with mode := .listen, halt := { start := true, lineStop := false, supply := false } }

theorem test_end_of_listen_runs :
    (after .endOfListen listening).mode = .run ∧
    ((after .endOfListen listening).record 3).state = .queued ∧
    (posted (after .endOfListen listening)).map (fun p => p.loc.district) = [0] := by decide +kernel

/-! ### Sensing and the trip engine (01, 02) -/

/-- The steady 6000 mA of 02: E rises by 3500 and is clamped at T with OVERLOAD at the sixth sample. -/
theorem test_overload_at_sixth_sample :
    ((after (.currentSample 0 600) (loaded 0 14000 0)).engine 0).excess = 17500 ∧
    ((after (.currentSample 0 600) (loaded 0 17500 0)).record 0).lastFault = .overload := by decide +kernel

/-- EARLY at 7000 in a reversing district: CONTEND with its FI posted. -/
theorem test_early_contends :
    ((after (.currentSample 1 600) (loaded 1 3500 0)).record 1).state = .contend ∧
    posted (after (.currentSample 1 600) (loaded 1 3500 0)) = [station.fiPost 1] := by decide +kernel

/-- The ramp of 02: at k = 1 the level in force is 4961 mA and 5200 mA adds 239. -/
theorem test_allowance : rampAllowance 2500 1 = 2461 ∧ accumulate 2500 2461 520 3200 = 3439 := by decide

/-- The probe verdicts of 02, first and second lines, at p4. -/
theorem test_probe_verdicts :
    Probe.sample 2500 260 { taken := 3, sum := 6100 } = .ends .short ∧
    Probe.sample 2500 140 { taken := 3, sum := 3300 } = .ends .clear ∧
    Probe.sample 2500 249 { taken := 3, sum := 5000 } = .ends .clear ∧
    Probe.sample 2500 250 { taken := 3, sum := 5000 } = .ends .short ∧
    Probe.sample 2500 1023 { taken := 0, sum := 0 } = .goesOn { taken := 1, sum := 0 } ∧
    Probe.sample 2500 1023 { taken := 2, sum := 2400 } = .ends .short := by decide

/-- The fortieth high sample sets the flag; the fourth low one clears it and halts (01 1.5). -/
theorem test_supply_low_halts :
    ((after (.supplySample 340) { station with supply := ⟨3, 0, true⟩ }).record 0).state = .halted ∧
    (after (.supplySample 340) { station with supply := ⟨3, 0, true⟩ }).halt.supply = true := by decide +kernel

theorem test_supply_high_ends_halt :
    (after (.supplySample 480) { stopped .cool with
      halt := ⟨false, false, true⟩, supply := ⟨0, 39, false⟩ }).halted = false := by decide +kernel

theorem test_probe_pulse_start :
    (after (.probePulseStart 0) (standingIn 0 .probing)).gate 0 = true := by decide +kernel

/-! ### Inputs (01) -/

theorem test_raw_change_starts_timer :
    (after (.rawInputChange .stop .low) (station.setQualifier .stop ⟨some .high, none, .high⟩)).stopQ =
      ⟨some .high, some 0, .low⟩ := by decide +kernel

theorem test_stop_press :
    (after (.debounceExpiry .stop) (pressing station .stop (some .high) .low)).line.driver = .minimum 0 ∧
    ((after (.debounceExpiry .stop) (pressing station .stop (some .high) .low)).record 2).state = .halted := by
  decide +kernel

theorem test_break_drive_minimum_end :
    (after .breakDriveMinimumEnd { station with line := { station.line with driver := .minimum 4000 } }).line.driver =
      .off := by decide +kernel

/-! ### District recovery (03) -/

/-- The ladder of 3.8: SHORT at p2 with n 4 gives n 5 and 4000 ms; with n 7 the district locks. -/
theorem test_ladder :
    ((after (.currentSample 0 1023) ((pulsing 0 1 0).modRecord 0 (fun d => { d with n := 4 }))).record 0).cooling =
      4000000 ∧
    ((after (.currentSample 0 1023) ((pulsing 0 1 0).modRecord 0 (fun d => { d with n := 7 }))).record 0).state =
      .locked := by decide +kernel

theorem test_cooling_expiry :
    ((after (.coolingExpiry 0) (standingIn 0 .cooling)).record 0).state = .probing := by decide +kernel

theorem test_settle_window_expiry :
    ((after (.settleWindowExpiry 0) (having 0 (fun d => { d with n := 3, settle := some 0 }))).record 0).n = 0 := by
  decide +kernel

theorem test_ramp_advance : ((after (.rampKAdvance 0) (ramping 0 5)).record 0).k = 6 := by decide +kernel

theorem test_ramp_completion :
    ((after (.rampCompletion 0) (ramping 0 63)).record 0).state = .live ∧
    posted (after (.rampCompletion 0) (ramping 0 63)) = [station.rePost 0] := by decide +kernel

/-- A hold during a ramp (03 3.12): DARK, the RE posted, the own entry gone. -/
theorem test_hold_cuts_ramp :
    ((after (.hdFrame { body 0 58#8 with loc := ⟨3, 0, false, true⟩ }) (ramping 0 5)).record 0).state = .dark ∧
    posted (after (.hdFrame { body 0 58#8 with loc := ⟨3, 0, false, true⟩ }) (ramping 0 5)) =
      [station.rePost 0] := by decide +kernel

/-! ### Reversing districts (04) -/

theorem test_contend_timeout :
    ((after (.contendTimeout 1) (standingIn 1 .contend)).relay 1).pol = some .high := by decide +kernel

theorem test_confirm_timeout :
    ((after (.confirmTimeout 1) (standingIn 1 .switching)).record 1).lastFault = .relay := by decide +kernel

theorem test_flip_watch_end :
    ((after (.flipWatchEnd 1) (having 1 (fun d => { d with watch := .flip }))).record 1).watch = .none := by
  decide +kernel

theorem test_yield_watch_end :
    ((after (.yieldWatchEnd 1) (having 1 (fun d => { d with watch := .yield, yielded := true }))).record 1).yielded =
      false := by decide +kernel

theorem test_chatter_window_expiry :
    ((after (.chatterWindowExpiry 1)
      (station.modRelay 1 (fun r => { r with flipCount := 3, chatter := some 0 }))).relay 1).flipCount = 0 := by
  decide +kernel

/-- The pardon of R88 after a trip at n 1: 30 ms, n 0; not once the window is closed. -/
theorem test_pardon_and_its_end :
    ((after (.fiFrame (body 1 0)) (having 0 (fun d => { d with
      state := .cooling, n := 1, cooling := 245000, pardonWindow := true }))).record 0).cooling = 30000 ∧
    ((after (.fiFrame (body 1 0)) (after (.pardonWindowEnd 0) (having 0 (fun d => { d with
      state := .cooling, n := 1, cooling := 245000, pardonWindow := true })))).record 0).cooling = 245000 := by
  decide +kernel

/-- 10.5 ms into the COOLING of a trip the count of whole ms that ran is 10, an FI pardons, and the cooling ends 40 ms
after the trip; the window is due to end at 11 ms (R47, R87, R88). -/
theorem test_pardon_in_the_eleventh_ms :
    (let s := fun left : Nat => having 0 (fun d => { d with
        state := .cooling, n := 1, cooling := left, pardonWindow := true })
     ((after (.fiFrame (body 1 0)) (s 239500)).record 0).cooling = 29500 ∧
     Instr.pardonWindowEnd 0 ∉ (s 239001).due ∧ Instr.pardonWindowEnd 0 ∈ (s 239000).due ∧
     ((after (.fiFrame (body 1 0)) (s 239000)).record 0).cooling = 29000) := by decide +kernel

/-! ### Clocks and the ramp list unit (08) -/

/-- The list of station 40 in 08 8.7, after the RB of station 23. -/
theorem test_peer_rb_recorded :
    (after (.rbFrame { body 1 2#8 with sender := 23 }) { station with ramp := { RampUnit.reset with
      list := [⟨12, 0, .peer 40⟩, ⟨51, 3, .peer 70⟩] } }).ramp.list =
        [⟨12, 0, .peer 40⟩, ⟨51, 3, .peer 70⟩, ⟨23, 1, .peer 96⟩] := by decide +kernel

theorem test_inrush_tr_starts_holdoff :
    (after (.trFrame (body 1 0x32#8)) station).ramp.holdoff = some 50 := by decide +kernel

theorem test_millisecond_tick :
    (after .millisecondTick { station with ramp := { RampUnit.reset with
      list := [⟨12, 0, .peer 40⟩], holdoff := some 3 } }).ramp =
        { RampUnit.reset with list := [⟨12, 0, .peer 39⟩], holdoff := some 2 } := by decide +kernel

theorem test_peer_entry_expiry :
    (after (.peerEntryExpiry 12 0) { station with ramp := { RampUnit.reset with
      list := [⟨12, 0, .peer 0⟩, ⟨51, 3, .peer 70⟩] } }).ramp.list = [⟨51, 3, .peer 70⟩] := by decide +kernel

theorem test_floor_expiry :
    (after .floorExpiry { station with ramp := { RampUnit.reset with floor := some ⟨2, 0⟩ } }).ramp.floor =
      none := by decide +kernel

/-- In QUIET the end of the hold-off starts a ramp (R161). -/
theorem test_holdoff_end_starts_ramp :
    ((after .holdoffEnd { standingIn 3 .queued with
      mode := .quiet, ramp := { RampUnit.reset with holdoff := some 0 } }).record 3).state = .ramping := by
  decide +kernel

theorem test_lamp_phase_advance :
    (after .lampPhaseAdvance { station with lampPhase := 15 }).lampPhase = 0 := by decide +kernel

/-! ### The peer line (05) -/

/-- Step 3, 7 and 9 of the assembly through errors of 5.4. -/
theorem test_character_error :
    (after (.characterError ⟨0x28#8, false, false, true⟩)
      { station with handler := ⟨[0x10#8, 0x28#8], false⟩ }).handler = ⟨[], true⟩ := by decide +kernel

theorem test_short_error :
    (after (.shortError 0x10#8) { station with handler := ⟨[0x10#8, 0x28#8], false⟩ }).handler =
      ⟨[0x10#8], false⟩ := by decide +kernel

theorem test_clean_character :
    (after (.cleanCharacter 0x28#8 false) { station with handler := ⟨[0x10#8], false⟩ }).handler =
      ⟨[0x10#8, 0x28#8], false⟩ := by decide +kernel

theorem test_idle_gap :
    (after .idleGap { station with handler := ⟨[0x10#8], false⟩ }).handler = ⟨[], true⟩ := by decide +kernel

/-- One waiting entry is offered; the RB of a station that is not eligible sits out. -/
theorem test_idle_boundary_attempt :
    (after .idleBoundaryAttempt { station with queue := [(station.rePost 0).waiting] }).line.tx.isSome = true ∧
    (after .idleBoundaryAttempt { station with
      queue := [(station.rbPost 0).waiting, (station.stPost 0).waiting],
      ramp := { RampUnit.reset with holdoff := some 3 } }).line.tx =
        some { frame := (station.stPost 0).copyFrom 58, char := 0, t := 0 } := by decide +kernel

theorem test_join :
    (after (.join 10) { station with queue := [(station.rePost 0).waiting] }).line.tx.isSome = true ∧
    (after (.join 9) { station with queue := [(station.rePost 0).waiting] }).line.tx.isSome = false := by
  decide +kernel

theorem test_arbitration_loss :
    (after .arbitrationLoss (sending (station.rePost 0) station)).queue = [(station.rePost 0).waiting] := by
  decide +kernel

theorem test_driver_fault :
    (after .driverFault (sending (station.rePost 0) station)).mode = .quiet ∧
    (after .driverFault (sending (station.rePost 0) station)).queue = [] := by decide +kernel

theorem test_break_detected :
    (after .breakDetected station).halt.lineStop = true ∧
    ((after .breakDetected station).record 1).returnClass = .queue := by decide +kernel

theorem test_break_end :
    (after .breakEnd { station with line := { station.line with breakInProgress := true } }).line.breakInProgress =
      false := by decide +kernel

theorem test_falling_edge_and_recheck :
    (after (.lineFallingEdge 11) station).line.rx.check = some 8 ∧
    (after (.startRecheck .low) (after (.lineFallingEdge 11) station)).line.rx.phase = .character := by
  decide +kernel

/-- A break detected, an idle gap, a falling edge: the break is over and the new dominant run begins at 0 (R108,
R109). -/
theorem test_idle_gap_then_edge :
    (let s := after (.lineFallingEdge 11) (after .idleGap (after .breakDetected station))
     s.line.dominant = 0 ∧ s.line.breakSeen = false ∧ s.line.breakInProgress = false) := by decide +kernel

/-- The first microsecond after the own release counts as recessive, and the first after an edge as dominant (R94,
R108). -/
theorem test_line_timers_count_at_once :
    (let driving := { station with line := { station.line with
        driver := .held, was := .low, idle := 0, idleSub := 0, dominant := 1500, bitLeft := 7 } }
     (after (.debounceExpiry .stop) (pressing driving .stop (some .low) .high)).advance.line.idleSub = 1 ∧
     driving.advance.line.dominant = 1501 ∧
     (after (.lineFallingEdge 11) station).advance.line.dominant = 1 ∧
     (after (.lineFallingEdge 11) station).advance.line.idleSub = 0) := by decide +kernel

/-- An idle gap, an attempt lost at once, an idle boundary: the line reads dominant, so its idle timer is at 0 and no
frame begins (R94); and a driver that releases the pin leaves the timer at 0. -/
theorem test_dominant_line_is_not_idle :
    (let lost := after .arbitrationLoss (after .idleGap { station with queue := [(station.rePost 0).waiting] })
     lost.lineLevel = .low ∧ lost.line.idle = 0 ∧ (after .idleBoundaryAttempt lost).line.tx = none) ∧
    (after (.startRecheck .low) station).line.idle = 0 ∧
    (after .breakDriveMinimumEnd { station with
      line := { station.line with driver := .minimum 4000 } }).line.idle = 0 := by decide +kernel

/-- A line held dominant so long that the receiver has judged FRAMING, and a clean character reported over it: its
stop slot shows the line recessive (R108).  A character that the receiver judged itself leaves the line alone. -/
theorem test_reported_character_frees_line :
    (let held (raw : RawChar) : State := { station with
        line := { (after (.lineFallingEdge 11) station).line with
          dominant := 186, rx := { Receiver.reset with phase := .ready, handing := some (raw, 6) } } }
     let framing := RawChar.ofSlots (List.replicate 12 .low)
     (after (.cleanCharacter 0#8 true) (held framing)).lineLevel = .high ∧
     (after (.cleanCharacter 0#8 true) (held framing)).line.dominant = 0 ∧
     (after (.cleanCharacter 0#8 true) (held framing)).line.rx.handing = none ∧
     (after (.characterError framing) (held framing)).line.dominant = 186 ∧
     (after (.characterError framing) (held framing)).lineLevel = .low) := by decide +kernel

/-- A character reported while the own driver pulls leaves the line dominant with the idle timer at 0, and so does one
reported after the start edge of the next, which the receiver checks (R93 to R95).  A character that the line has had
time for, or the end of an own frame, leaves it recessive. -/
theorem test_character_and_edge_at_one_instant :
    (let driving := after (.debounceExpiry .stop) (pressing station .stop (some .high) .low)
     (after (.cleanCharacter 0#8 true) driving).lineLevel = .low ∧
     (after (.cleanCharacter 0#8 true) driving).line.idle = 0 ∧ (after .idleGap driving) = driving) ∧
    (let next := after (.cleanCharacter 0#8 true) (after (.lineFallingEdge 1) station)
     next.lineLevel = .low ∧ next.line.idle = 0 ∧ next.line.rx.check = some 8 ∧ next.handler = ⟨[0#8], false⟩) ∧
    (let checked := after (.startRecheck .low) (after (.lineFallingEdge 11) station)
     (after (.cleanCharacter 0#8 true) checked).lineLevel = .high) ∧
    (let joined := after (.join 11) { station with queue := [(station.rePost 0).waiting] }
     (after (.cleanCharacter 0#8 true) (after .arbitrationLoss joined)).lineLevel = .high ∧
     (after .ownFrameCompletion joined).lineLevel = .high) := by decide +kernel

/-- The station 58 sending an RE, `t` µs into its first character, its receiver READY past the stop slot's sample. -/
def midFrame (t : Nat) : State :=
  { station with
    line := { station.line with
      tx := some { frame := (station.rePost 0).copyFrom 58, char := 0, t := t }, was := .high, idle := 2 } }

/-- An edge 5 µs before the end of the own stop slot: the transmitter goes on to that end, and times its next character
from the edge, as the receiver does (R91).  On a recessive line it times it from its own edge. -/
theorem test_next_character_is_timed_from_the_line :
    (let early := after (.lineFallingEdge 1) (midFrame 187)
     early.line.tx.map (fun x => (x.char, x.t)) = some (0, 187) ∧ early.txPulls = false ∧
     (let t := early.advance.advance.advance.advance.advance
      t.line.tx.map (fun x => (x.char, x.t)) = some (1, 5) ∧ t.txPulls = true ∧ t.line.rx.check = some 3)) ∧
    (midFrame 191).advance.line.tx.map (fun x => (x.char, x.t)) = some (1, 0) := by decide +kernel

/-- The sample of a recessive slot (slot 4 of the HEAD of an RE) and an edge at the same microsecond: before it the
sample is a loss, after it none (R91, R105). -/
theorem test_edge_at_a_sample :
    (let before := (after (.lineFallingEdge 1) (midFrame 55)).advance
     before.due.contains .arbitrationLoss = true) ∧
    (let later := after (.lineFallingEdge 1) (midFrame 55).advance
     later.line.tx.map (fun x => x.t) = some 56 ∧ later.due.contains .arbitrationLoss = false) := by decide +kernel

/-- A break detected while an own frame begins: the line stays dominant, and no end of the break is due (R108, R109). -/
theorem test_break_in_own_frame :
    (let s := after .breakDetected (after .idleGap { station with queue := [(station.rePost 0).waiting] })
     s.lineLevel = .low ∧ s.line.dominant = 2000 ∧ s.due.contains .breakEnd = false ∧
       s.queue = [(station.rePost 0).waiting] ∧ (after .breakEnd s).lineLevel = .high) := by decide +kernel

/-- STOP/ and at once a break detected: no falling edge is due on the line that was never recessive, the break stays
detected as time passes, and its end is due when the driver has released the pin (R108, R109). -/
theorem test_break_detected_at_stop :
    (let s := after .breakDetected (after (.debounceExpiry .stop) (pressing station .stop (some .high) .low))
     s.due.any (fun c => c == .lineFallingEdge (Fin.ofNat 12 s.line.idle) || c == .breakDetected) = false ∧
     s.advance.line.breakSeen = true ∧ s.advance.line.dominant = 2000 ∧
     (let released := after .breakDriveMinimumEnd { s with stopQ := { settled := some .high, raw := .high, held := none } }
      released.due.contains .breakEnd = true ∧ (after .breakEnd released).line.breakInProgress = false)) := by
  decide +kernel

/-- The pin of a transmitter that finds it recessive reads recessive after the fault (R106, R108). -/
theorem test_driver_fault_frees_line :
    (let s := after .driverFault (after (.join 11) { station with queue := [(station.rePost 0).waiting] })
     s.lineLevel = .high ∧ s.line.dominant = 0 ∧ s.mode = .quiet) := by decide +kernel

/-- STOP/ delivered as the own frame ends: the frame stays pending, and its fourth character, judged and not yet handed
over, makes no frame (R111). -/
theorem test_stop_at_the_last_slot :
    (let f := sending (station.rePost 0) station
     let s := pressing { f with
       line := { f.line with rx := { f.line.rx with handing := some (RawChar.ofClean 0 false, 0) } },
       handler := ⟨[0x20#8, 0x3A#8, 0x30#8], false⟩ } .stop (some .high) .low
     let t := after (.debounceExpiry .stop) s
     t.queue = [(station.rePost 0).waiting] ∧ t.mode = .run ∧ t.due.all (fun c => c == .lineFallingEdge 11) = true ∧
       after (.cleanCharacter 0#8 false) t = { t with line := (after (.cleanCharacter 0#8 false) t).line }) := by
  decide +kernel

/-- A halt that ended at this moment, with the fourth low sample due at it: no attempt comes between (R178). -/
theorem test_no_attempt_inside_a_passage :
    (let s := { station with
        queue := [(station.rbPost 0).waiting], converter := .scan 200 4, vsenPin := 100,
        supply := ⟨3, 0, true⟩, line := { station.line with bitLeft := 0 } }
     s.due = [.idleBoundaryAttempt, .supplySample 100] ∧
       { s with haltEnded := true }.due = [.supplySample 100] ∧
       (after (.debounceExpiry .resume) (pressing (stopped .queue) .resume (some .high) .low)).haltEnded = true ∧
       { s with haltEnded := true }.advance.haltEnded = false) := by decide +kernel

/-! ### Frames of other stations (06) -/

theorem test_fi_makes_contending_district_yield :
    ((after (.fiFrame (body 0 0)) (having 1 (fun d => { d with state := .contend, origin := .live }))).record 1).watch =
      .yield := by decide +kernel

theorem test_re_removes_peer_entry :
    (after (.reFrame (body 1 0)) { station with ramp := { RampUnit.reset with
      list := [⟨40, 1, .peer 70⟩] } }).ramp.list = [] := by decide +kernel

theorem test_rs_ends_line_stop : (after (.rsFrame (body 0 0)) (stopped .dark)).halted = false := by decide +kernel

theorem test_rl_releases_locked :
    ((after (.rlFrame (body 3 58#8)) (standingIn 3 .locked)).record 3).state = .probing ∧
    ((after (.rlFrame (body 3 57#8)) (standingIn 3 .locked)).record 3).state = .locked := by decide +kernel

/-- The four replies of 11 11.3: HEAD 1000 0011, and the DATA of district 3 COOLING after an OVERLOAD. -/
theorem test_sq_answered :
    (posted (after (.sqFrame (body 0 58#8)) { having 3 (fun d => { d with
      state := .cooling, lastFault := .overload }) with
        alert := true, ramp := { RampUnit.reset with floor := some ⟨1, 500⟩ } })).map
      (fun p => (p.headByte, p.data)) =
        [(0x83#8, 0x20#8), (0x83#8, 0x20#8), (0x83#8, 0x20#8), (0x83#8, 0x32#8)] := by decide +kernel

theorem test_st_and_unknown_kinds_are_discarded :
    (after (.stFrame (body 0 0)) station).districts = station.districts ∧
    (after (.unknownKindFrame 6 (body 0 0)) station).districts = station.districts := by decide +kernel

theorem test_duplicate_enters_quiet :
    (after (.stFrame { body 0 0 with sender := 58 }) station).mode = .quiet := by decide +kernel

/-! ### Own completions (05, 07, 08) -/

theorem test_own_fi_switches :
    ((after .ownFiCompletion (sending (station.fiPost 1) (standingIn 1 .contend))).record 1).state = .switching := by
  decide +kernel

theorem test_own_rb_starts_ramp :
    ((after .ownRbCompletion (sending (station.rbPost 0) (standingIn 0 .queued))).record 0).state = .ramping ∧
    posted (after .ownRbCompletion (sending (station.rbPost 0) station)) = [station.rePost 0] := by decide +kernel

theorem test_own_tr_starts_holdoff :
    (after .ownTrCompletion (sending { station.rePost 0 with kind := .tr, data := 0x31#8 } station)).ramp.holdoff =
      some 50 := by decide +kernel

theorem test_own_frame_leaves_queue :
    (after .ownFrameCompletion (sending (station.rePost 0) station)).queue = [] := by decide +kernel

/-- The full queue of 07 7.9: at step 3 the ST of district 3 makes way for the TR of district 0. -/
theorem test_full_queue :
    ((postInto { station.rePost 0 with kind := .tr } ([(station.fiPost 2), { station.rePost 3 with kind := .tr },
        station.rePost 2, station.rbPost 1, station.stPost 0, station.stPost 1, station.stPost 2,
        station.stPost 3].map Post.waiting)).queue.map (fun e => (e.frame.kind.code, e.frame.loc.district))) =
      [(0, 2), (1, 0), (1, 3), (2, 2), (3, 1), (8, 0), (8, 1), (8, 2)] := by decide +kernel

/-! ### Witnesses: states and operands that meet the hypotheses of the statements -/

/-- Reset with an empty queue has nothing due; a millisecond that has run is due. -/
theorem witness_EmptyQueueStepsTheClock :
    State.reset.pending = [] ∧ State.reset.due = [] ∧ { State.reset with msLeft := 0 }.due ≠ [] := by
  decide +kernel

/-- The first reading, the last but one, and a reading outside STRAPS. -/
theorem witness_StrapReadingRecorded :
    State.reset.mode = .straps ∧ (recordReading ⟨0, 0, 230⟩ State.reset.readings).length < 24 ∧
    (recordReading ⟨4, 3, 226⟩ (cardReadings 95)).length = 23 ∧ station.mode ≠ .straps := by decide +kernel

/-- The 24 readings of the card of station 58 once the last one is recorded. -/
def allReadings (str3round2 : Code) : List Reading := recordReading ⟨5, 3, 414⟩ (beforeLast str3round2).readings

/-- The card of station 58 and its bands. -/
theorem witness_GoodStrapsEnterSelftest :
    (beforeLast 95).mode = .straps ∧ 24 ≤ (allReadings 95).length ∧ StrapHasBand (allReadings 95) 0 3 ∧
    StrapHasBand (allReadings 95) 1 10 ∧ StrapHasBand (allReadings 95) 2 3 ∧
    StrapHasBand (allReadings 95) 3 1 ∧ StrapHasBand (allReadings 95) 4 3 ∧
    StrapHasBand (allReadings 95) 5 6 ∧ ¬ ((3 : Fin 16) = 15 ∧ (10 : Fin 16) = 15) := by
  refine ⟨by decide, by decide +kernel, by decide +kernel, by decide +kernel, by decide +kernel,
    by decide +kernel, by decide +kernel, by decide +kernel, by decide⟩

/-- The boundary remainders 8 and 55 of a band are inside it. -/
theorem witness_GoodStrapsEnterSelftest_boundary :
    StrapHasBand (allReadings 72) 3 1 ∧ StrapHasBand (allReadings 119) 3 1 := by
  refine ⟨by decide +kernel, by decide +kernel⟩

/-- A reading one step into the guard zone: strap 3 has no band. -/
theorem witness_BadStrapsEnterStrapFault :
    (beforeLast 120).mode = .straps ∧ 24 ≤ (allReadings 120).length ∧
    ∀ b : Fin 16, ¬ StrapHasBand (allReadings 120) 3 b := by
  refine ⟨by decide, by decide +kernel, by decide +kernel⟩

/-- A card of station number 255. -/
theorem witness_BadStrapsEnterStrapFault_number :
    24 ≤ ((allReadings 95).map (fun r => { r with code := 992 })).length ∧
    StrapHasBand ((allReadings 95).map (fun r => { r with code := 992 })) 0 15 ∧
    StrapHasBand ((allReadings 95).map (fun r => { r with code := 992 })) 1 15 := by
  refine ⟨by decide +kernel, by decide +kernel, by decide +kernel⟩

theorem witness_SelftestJudged :
    testing.mode = .selfTest ∧ testing.config = some card ∧ testing.selfTest.handed < 4 ∧
    { testing.selfTest with handed := 3 }.handed < 4 := by decide +kernel

/-- With the notes clear, and with each of them set. -/
theorem witness_EndOfListenStartsStation :
    listening.mode = .listen ∧ listening.queue = [] ∧ listening.ramp.rbDistrict = none ∧
    (after .endOfListen listening).waitsLongest 0 ∧ ((after .endOfListen listening).record 0).w < 65535 ∧
    listening.selfTestNote = false ∧ listening.duplicateNote = false ∧
    { listening with duplicateNote := true }.duplicateNote = true := by decide +kernel

/-- A gate that is off; and a sample at L in LIVE, with the excess one step below T − the sample's own. -/
theorem witness_SampleWithoutDetection :
    station.mode ≠ .straps ∧ station.NoStartOwed ∧ (standingIn 0 .dark).gate 0 = false ∧
    (standingIn 0 .dark).NoStartOwed ∧ station.config = some card ∧ (station.record 0).state = .live ∧
    ((ramping 0 63).record 0).state = .ramping ∧ (ramping 0 63).NoStartOwed ∧
    accumulate 2500 0 251 19989 = 19999 ∧ accumulate 2500 40 255 19989 = 19999 ∧
    isHard 2500 749 = false ∧ isHard 2500 750 = true ∧ isHard 2500 1023 = true := by decide +kernel

/-- HARD by a second hard sample, at H; OVERLOAD exactly at T; under the flip watch and with n at 7. -/
theorem witness_TripInLive :
    station.mode ≠ .straps ∧ station.config = some card ∧ (loaded 0 0 1).NoStartOwed ∧
    ((loaded 0 0 1).record 0).state = .live ∧ ((loaded 0 0 1).record 0).reversing = false ∧
    min (3 * 2500) 10000 ≤ 10 * (750 : Code).toNat ∧ 2 ≤ ((loaded 0 0 1).engine 0).hardRun + 1 ∧
    2500 < 10 * (251 : Code).toNat ∧
    8 * 2500 ≤ ((loaded 0 19990 0).engine 0).excess + (10 * (251 : Code).toNat - 2500) ∧
    ((having 1 (fun d => { d with watch := .flip, n := 7 })).record 1).watch = .flip := by decide +kernel

/-- INRUSH exactly at T at k = 63, and HARD in a non-reversing district. -/
theorem witness_TripInRamp :
    (ramping 0 63).mode ≠ .straps ∧ (ramping 0 63).config = some card ∧
    ((ramping 0 63).record 0).state = .ramping ∧ (ramping 0 63).QueueOk ∧
    2500 + (2500 - 2500 * 63 / 64) < 10 * (255 : Code).toNat ∧
    8 * 2500 ≤ 19990 + (10 * (255 : Code).toNat - (2500 + (2500 - 2500 * 63 / 64))) ∧
    min (3 * 2500) 10000 ≤ 10 * (750 : Code).toNat ∧
    ((ramping 0 63).record 0).reversing = false := by decide +kernel

/-- EARLY exactly at TE and one step below T; HARD in LIVE and in RAMPING. -/
theorem witness_ChangeoverCauseContends :
    station.mode ≠ .straps ∧ station.config = some card ∧ (station.record 1).reversing = true ∧
    (station.record 1).state = .live ∧ (station.record 1).watch ≠ .flip ∧
    8 * 2500 / 4 ≤ accumulate 2500 0 300 4500 ∧ accumulate 2500 0 300 4500 = 5000 ∧
    accumulate 2500 0 251 19989 ≠ 8 * 2500 ∧
    ((ramping 1 0).record 1).state = .ramping ∧ ((ramping 1 0).record 1).reversing = true ∧
    2 ≤ ((loaded 1 0 1).engine 1).hardRun + 1 := by decide +kernel

/-- Each sample of a probe, and the mean at L and one step below it. -/
theorem witness_ProbeSamples :
    (pulsing 0 3 5000).mode ≠ .straps ∧ (pulsing 0 3 5000).config = some card ∧ (pulsing 0 3 5000).NoStartOwed ∧
    ((pulsing 0 3 5000).record 0).state = .probing ∧ ((pulsing 0 3 5000).record 0).phase = .pulse ∧
    ((pulsing 0 3 5000).engine 0).probe = some { taken := 3, sum := 5000 } ∧
    ((pulsing 0 0 0).engine 0).probe = some { taken := 0, sum := 0 } ∧
    ((pulsing 0 1 0).engine 0).probe = some { taken := 1, sum := 0 } ∧
    ((pulsing 0 2 0).engine 0).probe = some { taken := 2, sum := 0 } ∧
    2500 ≤ (5000 + 10 * (250 : Code).toNat) / 3 ∧ (5000 + 10 * (249 : Code).toNat) / 3 < 2500 ∧
    (let t := after (.currentSample 0 249) (pulsing 0 3 5000)
     (pulsing 0 3 5000).mode = .run ∧ (pulsing 0 3 5000).QueueOk ∧ (pulsing 0 3 5000).queue.length < 8 ∧
       (pulsing 0 3 5000).ramp.rbDistrict ≠ some 0 ∧ t.waitsLongest 0 ∧ (t.record 0).w < 65535) ∧
    ((pulsing 1 3 5000).record 1).reversing = true ∧ ((pulsing 1 3 5000).record 1).probeFlipTried = false := by
  decide +kernel

theorem witness_SupplyCounters :
    station.mode ≠ .straps ∧ (359 : Code).toNat < 360 ∧ 360 ≤ (360 : Code).toNat ∧ (399 : Code).toNat < 400 ∧
    400 ≤ (400 : Code).toNat := by decide

/-- The fourth low sample, the fortieth high one, and a sample that is neither. -/
theorem witness_SupplyLostAndRestored :
    (let s := { station with supply := ⟨3, 0, true⟩ }
     s.mode ≠ .straps ∧ s.HaltOk ∧ s.supply.lowRun < 4 ∧ s.supply.lowRun = 3 ∧ s.supply.highRun < 40 ∧
       s.halted = false) ∧
    (let s := { stopped .cool with halt := ⟨false, false, true⟩, supply := ⟨0, 39, false⟩ }
     s.mode ≠ .straps ∧ s.HaltOk ∧ s.supply.highRun < 40 ∧ s.supply.highRun = 39 ∧ s.supply.present = false) ∧
    station.HaltOk := by decide +kernel

theorem witness_QualifierTimed :
    Level.low ≠ (station.qualifier .stop).raw ∧ station.NoStartOwed ∧
    ((pressing station .release (some .high) .high).qualifier .release).held.isSome = true ∧
    (pressing station .release (some .high) .high).NoStartOwed ∧
    ¬ (((pressing station .release none .low).qualifier .release).settled = some .high ∧
      ((pressing station .release none .low).qualifier .release).raw = .low) := by decide +kernel

/-- From a settled high level and as the initial level. -/
theorem witness_StopPressHalts :
    ((pressing station .stop (some .high) .low).qualifier .stop).held.isSome = true ∧
    ((pressing station .stop (some .high) .low).qualifier .stop).raw = .low ∧
    ((pressing State.reset .stop none .low).qualifier .stop).raw = .low ∧ station.halted = false ∧
    State.reset.halted = true := by decide +kernel

/-- Released, with the driver past tBDRIVE and before it; a frame in its last character, on a station that is halted
already (its entry stays pending) and on one that is not. -/
theorem witness_StopPressHalts_release :
    (let s := pressing { station with line := { station.line with driver := .held } } .stop (some .low) .high
     (s.qualifier .stop).held.isSome = true ∧ (s.qualifier .stop).raw = .high ∧ s.NoStartOwed ∧
       s.line.driver = .held ∧ BreakDriver.minimum 3999 ≠ .held) ∧
    (let s := sending (station.rePost 0) (stopped .queue)
     s.halted = true ∧ s.line.tx.isSome = true ∧ s.line.tx.map (fun x => x.char) = some 3 ∧
       (∀ e ∈ s.queue, e.frame.kind ≠ .rs ∧ e.phase = .onLine .none)) ∧
    (let s := sending (station.trPost 0) station
     s.halted = false ∧ s.line.tx.isSome = true ∧ s.queue.length ≤ 4 ∧ ∀ e ∈ s.queue, e.frame.kind = .tr ∧
       e.phase = .onLine .none) ∧
    (let s := sending (station.rePost 0) (ramping 0 5)
     s.halted = false ∧ ∀ e ∈ s.queue, e.frame = s.frameFor .re e.frame.loc.district 0) := by decide +kernel

/-- Refused with LINE_STOP absent and during a break; accepted on a stopped station. -/
theorem witness_ResumePress :
    (let s := pressing (stopped .probe) .resume (some .high) .low
     (s.qualifier .resume).held.isSome = true ∧ (s.qualifier .resume).settled = some .high ∧
       (s.qualifier .resume).raw = .low ∧ s.NoStartOwed ∧ s.line.breakInProgress = false ∧
       s.halt.lineStop = true ∧ s.mode = .run ∧ s.queue.length ≤ 2 ∧ s.QueueOk) ∧
    (let s := { pressing (stopped .probe) .resume (some .high) .low with mode := .quiet }
     s.NoStartOwed ∧ s.mode ≠ .run ∧ s.queue = []) ∧
    (pressing station .resume (some .high) .low).halt.lineStop = false := by decide +kernel

theorem witness_ReleasePress :
    (let s := pressing (standingIn 0 .locked) .release (some .high) .low
     (s.qualifier .release).held.isSome = true ∧ (s.qualifier .release).settled = some .high ∧
       (s.qualifier .release).raw = .low ∧ s.mode ≠ .straps ∧ s.mode ≠ .selfTest ∧
       (s.record 0).state = .locked ∧ (s.record 0).hold = false ∧ s.relayDisagrees 0 = false ∧
       (s.record 1).state = .live ∧ s.mode ≠ .quiet) ∧
    (let s := { pressing (standingIn 1 .queued) .release (some .high) .low with
        mode := .quiet, ramp := { RampUnit.reset with holdoff := some 1 } }
     (s.record 1).state = .queued ∧ s.NoStartOwed) ∧
    ((stopped .locked).record 0).returnClass = .locked := by decide +kernel

/-- A non-reversing district, a first level, a level equal to POL, and one that differs from it in SWITCHING. -/
theorem witness_RelayLevelAdopted :
    (let s := pressing station (.cnf 0) (some .high) .low
     (s.qualifier (.cnf 0)).held.isSome = true ∧ s.NoStartOwed ∧ (s.record 0).reversing = false) ∧
    (let s := pressing (station.modRelay 1 (fun r => { r with pol := none })) (.cnf 1) none .high
     (s.qualifier (.cnf 1)).held.isSome = true ∧ (s.record 1).reversing = true ∧ (s.relay 1).pol = none) ∧
    (let s := pressing station (.cnf 1) (some .high) .low
     (s.relay 1).pol = some .low ∧ (s.record 1).state ≠ .switching) ∧
    (let s := pressing (standingIn 1 .switching) (.cnf 1) (some .low) .high
     (s.qualifier (.cnf 1)).held.isSome = true ∧ s.NoStartOwed ∧ (s.record 1).reversing = true ∧
       (s.relay 1).pol = some Level.high.invert ∧ (s.record 1).state = .switching) := by decide +kernel

/-- The first flip, and the fifth. -/
theorem witness_RelayConfirms :
    (let s := pressing (standingIn 1 .switching) (.cnf 1) (some .high) .low
     (s.qualifier (.cnf 1)).held.isSome = true ∧ (s.record 1).reversing = true ∧
       (s.record 1).state = .switching ∧ (s.relay 1).pol = some (s.qualifier (.cnf 1)).raw ∧ s.NoStartOwed ∧
       (s.record 1).hold = false ∧ min ((s.relay 1).flipCount + 1) 5 < 5) ∧
    (let s := (standingIn 1 .switching).modRelay 1 (fun r => { r with flipCount := 4 })
     min ((s.relay 1).flipCount + 1) 5 = 5) ∧
    (let s := pressing ((stopped .queue).modRecord 1 (fun d => { d with confirmPending := true }))
        (.cnf 1) (some .high) .low
     (s.qualifier (.cnf 1)).held.isSome = true ∧ (s.record 1).reversing = true ∧ (s.record 1).state = .halted ∧
       (s.record 1).confirmPending = true ∧ (s.relay 1).pol = some (s.qualifier (.cnf 1)).raw ∧
       s.NoStartOwed ∧ s.halted = true ∧ { s with halt := ⟨false, false, false⟩ }.halted = false ∧
       { s with halt := ⟨false, false, false⟩ }.NoStartOwed) := by decide +kernel

theorem witness_UncommandedRelayFaults :
    (let s := pressing station (.cnf 1) (some .low) .high
     (s.qualifier (.cnf 1)).held.isSome = true ∧ (s.record 1).reversing = true ∧
       (s.relay 1).pol = some ((s.qualifier (.cnf 1)).raw.invert) ∧ (s.record 1).state ≠ .switching ∧
       (s.record 1).state ≠ .halted ∧ (s.record 1).state ≠ .locked ∧ s.QueueOk) ∧
    (let s := { pressing (standingIn 1 .queued) (.cnf 1) (some .low) .high with
        queue := [(station.rbPost 1).waiting] }
     (s.record 1).state = .queued ∧ s.QueueOk ∧ s.mode = .run ∧ s.queue.length < 8) ∧
    ((stopped .queue).record 1).state = .halted ∧ ((stopped .queue).record 1).confirmPending = false := by
  decide +kernel

/-- The end of tBDRIVE with STOP/ released and asserted; the end of a break with the driver off and driving. -/
theorem witness_BreakDriverAndBreakEnd :
    (let s := { station with line := { station.line with driver := .minimum 4000 } }
     s.line.driver = .minimum 4000 ∧ s.stopAsserted = false ∧ s.selfPulls = true ∧ s.line.driver ≠ .off ∧
       { s with stopQ := { settled := some .low, raw := .low, held := none } }.stopAsserted = true) ∧
    station.line.driver = .off ∧ station.selfPulls = false := by decide +kernel

/-- Cooling that ends with the relay agreeing and disagreeing; a probe that waits. -/
theorem witness_ProbingBegins :
    ((standingIn 1 .cooling).record 1).state = .cooling ∧ (standingIn 1 .cooling).relayDisagrees 1 = false ∧
    ((standingIn 1 .cooling).modRelay 1 (fun r => { r with cnf := some .high })).relayDisagrees 1 = true ∧
    ((standingIn 1 .probing).record 1).phase = .wait := by decide +kernel

theorem witness_WindowsEnd :
    ((having 0 (fun d => { d with settle := some 0 })).record 0).settle.isSome = true ∧
    ((having 1 (fun d => { d with watch := .flip })).record 1).watch = .flip ∧
    ((having 1 (fun d => { d with watch := .yield })).record 1).watch = .yield ∧
    ((station.modRelay 1 (fun r => { r with chatter := some 0 })).relay 1).chatter.isSome = true ∧
    ((standingIn 0 .cooling).record 0).state = .cooling := by decide +kernel

/-- k at 62, the last one below the end, and at 63. -/
theorem witness_RampAdvancesAndCompletes :
    ((ramping 0 62).record 0).state = .ramping ∧ (ramping 0 62).QueueOk ∧ ((ramping 0 62).record 0).k < 63 ∧
    ((ramping 0 63).record 0).k = 63 := by decide +kernel

/-- The first entries by rank: FI of districts 0 to 3, then TR of districts 0 to 3. -/
def firstRanks (count : Nat) : List Entry :=
  (List.range count).map (fun i =>
    Post.waiting { station.rePost (Fin.ofNat 4 i) with kind := Kind.ofCode (i / 4) })

/-- District 0 RAMPING and these entries in the queue. -/
def holding (entries : List Entry) : State := { ramping 0 5 with queue := entries }

/-- The placing of a posting: an entry to replace WAITING and ON_LINE; a full queue whose last entry is an RB that the
posted frame outranks, and an FI that it does not. -/
theorem witness_places :
    (holding (firstRanks 7 ++ [(station.rbPost 1).waiting])).QueueOk ∧
    (station.rePost 0).ranksAhead (station.rbPost 1) ∧
    (holding (firstRanks 8)).QueueOk ∧ (holding (firstRanks 8)).queue.length = 8 ∧
    (station.trPost 3).ranksAhead (station.rePost 0) ∧
    (holding [(station.rePost 0).waiting]).QueueOk ∧
    (sending (station.rePost 0) (ramping 0 5)).QueueOk := by
  refine ⟨by decide +kernel, by decide +kernel, by decide +kernel, by decide +kernel, by decide +kernel,
    by decide +kernel, by decide +kernel⟩

theorem witness_ChangeoverLimitsRunOut :
    ((standingIn 1 .contend).record 1).state = .contend ∧
    ((standingIn 1 .switching).record 1).state = .switching ∧
    (((stopped .queue).modRecord 1 (fun d => { d with confirmPending := true })).record 1).confirmPending =
      true := by decide +kernel

theorem witness_MillisecondClock : station.mode ≠ .quiet := by decide

/-- Two QUEUED districts of one w: the lower number is the one. -/
theorem witness_QuietStartsDirectly :
    (let s := { (standingIn 0 .queued).modRecord 3 (fun d => { d with state := .queued }) with mode := .quiet }
     s.mode = .quiet ∧ s.halted = false ∧ s.ramp.list.length < s.budgetInForce ∧
       (∀ j : District, (s.record j).state ≠ .ramping) ∧ (s.record 0).state = .queued ∧
       (∀ j : District, (s.record j).state = .queued →
         (s.record j).w < (s.record 0).w ∨ (s.record j).w = (s.record 0).w ∧ 0 ≤ j) ∧ s.queue = []) := by
  decide +kernel

theorem witness_LampsAndGates : { station with lampPhase := 15 }.lampPhase ≤ 15 := by decide

theorem witness_CharacterErrorHunts :
    Instr.wf (.characterError ⟨0x28#8, false, false, true⟩) = true ∧ station.mode ≠ .straps ∧
    station.mode ≠ .selfTest := by decide

/-- Each position of the assembly. -/
theorem witness_CleanCharacterTaken :
    station.mode ≠ .straps ∧ station.mode ≠ .selfTest ∧ station.handler.held = [] ∧
    (let s := { station with handler := ⟨[0x10#8, 0x28#8], false⟩ }
     s.handler.hunt = false ∧ s.handler.held.length = 2) ∧
    (let b := body 0 58#8
     let s := { station with handler := ⟨[0x50#8, 0x28#8, 0x30#8], false⟩ }
     s.handler.hunt = false ∧ s.line.tx = none ∧
       s.handler.held = [BitVec.ofNat 8 (16 * 5 + b.prio.val), BitVec.ofNat 8 b.sender.val,
         BitVec.ofNat 8 (16 * b.loc.group.val + 4 * b.loc.district.val + 2 * b.loc.all.toNat +
           b.loc.set.toNat)]) := by decide +kernel

/-- Each case of the receiver and the handler; an attempt with a head that is no RB, with an RB of an eligible station,
and with one that sits out, with an entry behind it and with none; an attempt after a break; and a break that goes on.
-/
theorem witness_IdleGapEndsAssembly :
    { Receiver.reset with phase := .awaitIdle }.phase = .awaitIdle ∧ station.line.rx.phase ≠ .awaitIdle ∧
    station.handler.held = [] ∧ station.selfPulls = false ∧
    { station with line := { station.line with driver := .held } }.selfPulls = true ∧
    (let s := { station with queue := [(station.rePost 0).waiting] }
     s.mode = .run ∧ s.line.tx = none ∧ (after .idleGap s).line.breakInProgress = false ∧ s.line.driver = .off ∧
       s.QueueOk) ∧
    (let s := { station with queue := [(station.rbPost 0).waiting, (station.stPost 0).waiting] }
     s.QueueOk ∧ s.eligible = true ∧
       { s with ramp := { RampUnit.reset with holdoff := some 1 } }.eligible = false ∧
       (after .idleGap { s with line := (after .breakDetected s).line }).line.breakInProgress = false) ∧
    { station with queue := [(station.rbPost 0).waiting] }.QueueOk ∧
    (after .idleGap { station with line := { station.line with breakInProgress := true } }).line.breakInProgress =
      true := by decide +kernel

/-- A head that is no RB; an RB of an eligible station, and of one whose hold-off runs, with an entry behind it and
with none; and each condition under which no attempt is made. -/
theorem witness_AttemptOffersHead :
    (let s := { station with queue := [(station.rePost 0).waiting] }
     s.line.idle = 11 ∧ s.QueueOk ∧ s.line.tx = none ∧ s.line.breakInProgress = false ∧ s.line.driver = .off ∧
       s.mode = .run) ∧
    (let s := { station with queue := [(station.rbPost 0).waiting, (station.stPost 0).waiting] }
     s.QueueOk ∧ s.eligible = true ∧
       { s with ramp := { RampUnit.reset with holdoff := some 1 } }.eligible = false) ∧
    { station with queue := [(station.rbPost 0).waiting] }.QueueOk ∧
    quiet.mode ≠ .run ∧ (sending (station.rePost 0) station).line.tx.isSome = true ∧
    { station.line with breakInProgress := true }.breakInProgress = true ∧
    { station.line with driver := .held }.driver ≠ .off ∧ State.reset.line.idle ≠ 11 ∧ station.queue = [] := by
  decide +kernel

/-- The idle timer at 9 and at 10. -/
theorem witness_JoinNeedsThreshold :
    (9 : Fin 12).val < 10 ∧ 10 ≤ (10 : Fin 12).val ∧
    (let s := { station with queue := [(station.rePost 0).waiting] }
     s.handler.hunt = false ∧ s.handler.held = [] ∧ s.mode = .run ∧ s.line.tx = none ∧
       s.line.breakInProgress = false ∧ s.line.driver = .off ∧ (station.rePost 0).kind ≠ .rb) := by
  decide +kernel

theorem witness_ArbitrationLossSettles :
    (sending (station.rePost 0) station).mode = .run ∧
    (sending (station.rePost 0) station).line.tx.isSome = true ∧
    (∀ e ∈ (sending (station.rePost 0) station).queue, e.phase = .onLine .none) := by decide +kernel

theorem witness_DriverFaultEntersQuiet :
    (sending (station.rePost 0) station).mode = .run ∧
    (sending (station.rePost 0) station).line.tx.isSome = true ∧
    (sending (station.rePost 0) station).line.driver = .off ∧
    (sending (station.rePost 0) station).halt.start = false := by decide +kernel

theorem witness_EdgeAndRecheck :
    station.mode ≠ .selfTest ∧ station.line.rx.phase = .ready ∧ station.line.rx.check = none ∧
    { Receiver.reset with phase := .ready, check := some 0 }.check.isSome = true ∧
    Receiver.reset.phase = .awaitIdle ∧ 10 ≤ (10 : Fin 12).val ∧ (9 : Fin 12).val < 10 ∧
    station.selfPulls = false ∧
    (let s := { station with line := { station.line with driver := .held, was := .low } }
     s.selfPulls = true ∧ s.line.was = .low ∧ s.mode ≠ .selfTest) := by decide +kernel

theorem witness_PeerIntentYieldsAndPardons :
    station.mode = .run ∧ station.config = some card ∧ (body 0 0).sender ≠ card.id ∧
    (body 0 0).loc.group = card.group ∧ (having 1 (fun d => { d with state := .contend })).NoStartOwed ∧
    (let d := (having 0 (fun d => { d with state := .cooling, n := 1, pardonWindow := true })).record 0
     d.state = .cooling ∧ d.reversing = false ∧ d.pardoned = false ∧ d.pardonWindow = true) ∧
    (let s := { having 1 (fun d => { d with state := .contend }) with queue := [(station.fiPost 1).waiting] }
     (s.record 1).state = .contend ∧ (s.record 1).yielded = false ∧ s.QueueOk) := by decide +kernel

theorem witness_PeerTripAndRampEnd :
    station.mode = .run ∧ station.config = some card ∧ (body 1 0x32#8).sender ≠ card.id ∧
    (body 1 0x32#8).loc.group = card.group := by decide

/-- The clamp's boundary values, and lists with room and without. -/
theorem witness_PeerRampBegin :
    station.mode = .run ∧ station.config = some card ∧ (body 1 0).sender ≠ card.id ∧
    (body 1 0).loc.group = card.group ∧ station.RampListOk ∧ station.NoStartOwed ∧
    max 1 (min (0 : Byte).toNat 16) = 1 ∧ max 1 (min (17 : Byte).toNat 16) = 16 ∧
    (let s := { station with ramp := { RampUnit.reset with list := (List.range 16).map (fun i =>
        { station := Fin.ofNat 256 i, district := 0, kind := .peer (i + 1) }) } }
     s.RampListOk ∧ s.ramp.list.length = 16 ∧
       ∀ e ∈ s.ramp.list, ¬ (e.station = (body 1 0).sender ∧ e.district = (body 1 0).loc.district)) := by
  decide +kernel

theorem witness_PeerResume :
    (stopped .queue).mode ≠ .straps ∧ (stopped .queue).mode ≠ .selfTest ∧
    (stopped .queue).config = some card ∧ (body 0 0).sender ≠ card.id ∧ (stopped .queue).NoStartOwed ∧
    (stopped .queue).line.breakInProgress = false ∧ (stopped .queue).halt.lineStop = true ∧
    station.halt.lineStop = false := by decide +kernel

/-- DATA 58 and DATA 255. -/
theorem witness_HoldFrame :
    station.mode = .run ∧ station.config = some card ∧ (body 0 58#8).sender ≠ card.id ∧
    (body 0 58#8).data.toNat = card.id.val ∧ (body 0 255#8).data.toNat = 255 ∧ station.NoStartOwed ∧
    station.QueueOk ∧ (ramping 0 5).QueueOk ∧ ((ramping 0 5).record 0).state = .ramping ∧
    (let s := { standingIn 0 .queued with queue := [(station.rbPost 0).waiting] }
     s.QueueOk ∧ (s.record 0).state = .queued ∧ s.NoStartOwed) ∧
    (body 0 58#8).loc.district = 0 ∧ { (body 0 58#8).loc with all := true }.all = true := by decide +kernel

theorem witness_ReleaseFrame :
    station.mode = .run ∧ station.config = some card ∧ (body 0 58#8).sender ≠ card.id ∧
    (body 0 58#8).data.toNat = card.id.val ∧ (standingIn 0 .locked).NoStartOwed ∧
    ((standingIn 0 .locked).record 0).state = .locked := by decide +kernel

/-- A queue of four entries, none an ST. -/
theorem witness_StatusQueryAnswered :
    station.mode = .run ∧ station.config = some card ∧ (body 0 58#8).sender ≠ card.id ∧
    (body 0 58#8).data.toNat = card.id.val ∧
    (let s := { station with queue := [0, 1, 2, 3].map (fun k => (station.rePost k).waiting) }
     s.queue.length ≤ 4 ∧ ∀ e ∈ s.queue, e.frame.kind ≠ .st) := by decide +kernel

theorem witness_FramesDiscarded :
    (∀ c, station.config = some c → (body 0 57#8).sender ≠ c.id) ∧
    { (body 0 57#8).loc with group := 4 }.group ≠ card.group ∧ (body 0 57#8).data.toNat ≠ card.id.val ∧
    (body 0 57#8).data.toNat ≠ 255 ∧ quiet.mode ≠ .run := by
  refine ⟨?_, by decide, by decide, by decide, by decide⟩
  intro c h
  cases h
  decide

theorem witness_DuplicateReported :
    station.config = some card ∧ { body 0 0 with sender := 58 }.sender = card.id ∧ station.NoStartOwed ∧
    listening.mode = .listen ∧ listening.NoStartOwed ∧ quiet.mode = .quiet ∧ quiet.NoStartOwed ∧
    station.mode = .run ∧ station.halt.start = false := by decide +kernel

theorem witness_OwnIntentWinsFlip :
    (let s := sending (station.fiPost 1) (standingIn 1 .contend)
     s.mode = .run ∧ (station.fiPost 1).kind = .fi ∧
       s.line.tx = some { frame := (station.fiPost 1).copyFrom 58, char := 3, t := 192 } ∧ s.QueueOk ∧
       (s.record 1).state = .contend ∧ ∀ e ∈ s.queue, e.frame.kind = .fi ∧ e.phase = .onLine .none) ∧
    (let s := { standingIn 1 .live with queue := [{ frame := station.fiPost 1, phase := .onLine .changed }],
                                        line := (sending (station.fiPost 1) station).line }
     s.QueueOk ∧ ∀ e ∈ s.queue, (s.record e.frame.loc.district).state ≠ .contend) := by decide +kernel

/-- A re-check that passes and one that does not, each with a district that waits on and is offered next. -/
theorem witness_OwnRampBeginRechecked :
    (let s := sending (station.rbPost 0) (standingIn 0 .queued)
     s.mode = .run ∧ (station.rbPost 0).kind = .rb ∧
       s.line.tx = some { frame := (station.rbPost 0).copyFrom 58, char := 3, t := 192 } ∧
       (s.record 0).state = .queued ∧ s.ramp.list.length < s.budgetInForce ∧ s.ramp.holdoff = none) ∧
    ((sending (station.rbPost 0) station).record 0).state ≠ .queued ∧
    (let s := sending (station.rbPost 0) ((standingIn 0 .queued).modRecord 3 (fun d => { d with state := .queued }))
     s.ramp.rbDistrict = none ∧ s.QueueOk ∧ s.queue.length < 7 ∧
       (after .ownRbCompletion s).waitsLongest 3 ∧ ((after .ownRbCompletion s).record 3).w < 65535) ∧
    (let s := { sending (station.rbPost 0) (standingIn 3 .queued) with
        ramp := { RampUnit.reset with rbDistrict := some 0 } }
     (s.record 0).state ≠ .queued ∧ s.QueueOk ∧ (after .ownRbCompletion s).waitsLongest 3) := by decide +kernel

/-- With an RB district; with none and no district QUEUED; with none and a QUEUED district, the queue full until the
frame leaves it. -/
theorem witness_OwnOtherCompletions :
    (let s := { sending (station.rePost 0) station with ramp := { RampUnit.reset with rbDistrict := some 2 } }
     s.mode = .run ∧ s.line.tx = some { frame := (station.rePost 0).copyFrom 58, char := 3, t := 192 } ∧
       s.ramp.rbDistrict ≠ none ∧ (station.rePost 0).kind = .re) ∧
    (∀ j : District, ((sending (station.trPost 0) station).record j).state ≠ .queued) ∧
    (sending (station.trPost 0) station).ramp.rbDistrict = none ∧ (station.trPost 0).kind = .tr ∧
    (let s := { sending (station.rePost 0) (standingIn 3 .queued) with
        queue := { frame := station.rePost 0, phase := .onLine .none } ::
          ([1, 2, 3].map (fun k => (station.rePost k).waiting) ++
            [0, 1, 2, 3].map (fun k => (station.stPost k).waiting)) }
     s.QueueOk ∧ s.queue.length = 8 ∧ (∃ e ∈ s.queue, e.phase = .onLine .none) ∧
       (after .ownFrameCompletion s).waitsLongest 3 ∧ ((after .ownFrameCompletion s).record 3).w < 65535) := by
  decide +kernel

/-- The conditions that the steps keep hold of the station in RUN too. -/
theorem witness_Invariants :
    station.QueueOk ∧ station.HaltOk ∧ station.GateOk ∧ station.RampListOk ∧ station.RecordsOk ∧
    station.NoStartOwed ∧
    step { station with pending := [.lampPhaseAdvance] } = .next (after .lampPhaseAdvance station) := by
  refine ⟨by decide +kernel, by decide +kernel, by decide +kernel, by decide +kernel, by decide +kernel,
    by decide +kernel, rfl⟩

theorem witness_ModeTransitions :
    exec .endOfListen listening = .next (after .endOfListen listening) ∧
    (after .endOfListen listening).mode = .run := by
  constructor
  · rfl
  · decide +kernel

end Sys2Proof.Tests
end

section
/-! PROOFS. What a command comes to, the updates of a qualifier, and what follows the districts' steps of a command
(R155, R161): the layer under the statements on sensing and the local inputs. -/

namespace Sys2Proof.Machine

/-! ### The meanings of the commands of this family -/

theorem exec_strapReading (strap : Fin 6) (round : Fin 4) (code : Code) (s : State) :
    exec (.strapReading strap round code) s = .next (s.strapReading strap round code) := rfl

theorem exec_supplySample (v : Code) (s : State) : exec (.supplySample v) s = .next (s.supplySample v) := rfl

theorem exec_rawInputChange (pin : InputPin) (level : Level) (s : State) :
    exec (.rawInputChange pin level) s =
      .next (s.setQualifier pin ((s.qualifier pin).rawChange level)) := rfl

theorem exec_debounceExpiry (pin : InputPin) (s : State) :
    exec (.debounceExpiry pin) s = .next (s.debounceExpiry pin) := rfl

/-! ### Qualifiers -/

@[simp] theorem State.qualifier_setQualifier_self (s : State) (pin : InputPin) (q : Qualifier) :
    (s.setQualifier pin q).qualifier pin = q := by
  cases pin with
  | cnf k => exact PerDistrict.get_set_self _ _ _
  | stop => rfl
  | resume => rfl
  | release => rfl

@[simp] theorem State.record_setQualifier (s : State) (pin : InputPin) (q : Qualifier) (k : District) :
    (s.setQualifier pin q).record k = s.record k := by
  cases pin <;> rfl

@[simp] theorem State.relay_setQualifier (s : State) (pin : InputPin) (q : Qualifier) (k : District) :
    (s.setQualifier pin q).relay k = s.relay k := by
  cases pin <;> rfl

/-! ### Relays -/

@[simp] theorem State.setRelay_setRelay (s : State) (k : District) (r r' : Relay) :
    (s.setRelay k r).setRelay k r' = s.setRelay k r' := by
  have relays : (s.relays.set k r).set k r' = s.relays.set k r' := by
    fin_cases k <;> rfl
  unfold State.setRelay
  dsimp only
  rw [relays]

/-- Whether a relay disagrees is read of its own district alone (R85). -/
theorem State.relayDisagrees_congr {s t : State} {k : District}
    (reversing : (t.record k).reversing = (s.record k).reversing) (relay : t.relay k = s.relay k) :
    t.relayDisagrees k = s.relayDisagrees k := by
  unfold State.relayDisagrees
  rw [reversing, relay]

/-! ### What the ramp list unit reads -/

/-- Nothing that the ramp list unit's choice and direct start read differs (R154, R155, R161). -/
structure State.Unmoved (s t : State) : Prop where
  districts : t.districts = s.districts
  mode : t.mode = s.mode
  ramp : t.ramp = s.ramp
  halt : t.halt = s.halt
  config : t.config = s.config

theorem State.Unmoved.trans {s t u : State} (h : s.Unmoved t) (h' : t.Unmoved u) : s.Unmoved u :=
  ⟨h'.districts.trans h.districts, h'.mode.trans h.mode, h'.ramp.trans h.ramp, h'.halt.trans h.halt,
    h'.config.trans h.config⟩

theorem State.unmoved_setQualifier (s : State) (pin : InputPin) (q : Qualifier) :
    s.Unmoved (s.setQualifier pin q) := by
  cases pin <;> exact ⟨rfl, rfl, rfl, rfl, rfl⟩

theorem State.unmoved_setRelay (s : State) (k : District) (r : Relay) : s.Unmoved (s.setRelay k r) :=
  ⟨rfl, rfl, rfl, rfl, rfl⟩

theorem State.unmoved_of_sameOutsideLine {s t : State} (h : State.sameOutsideLine s t) : s.Unmoved t := by
  unfold State.sameOutsideLine at h
  rw [h]
  exact ⟨rfl, rfl, rfl, rfl, rfl⟩

theorem State.queuedDistricts_congr {s t : State} (h : t.districts = s.districts) :
    t.queuedDistricts = s.queuedDistricts := by
  unfold State.queuedDistricts State.record
  rw [h]

theorem State.halted_congr {s t : State} (h : t.halt = s.halt) : t.halted = s.halted := by
  unfold State.halted
  rw [h]

theorem State.group_congr {s t : State} (h : t.config = s.config) : t.group = s.group := by
  unfold State.group
  rw [h]

theorem State.Unmoved.eligible {s t : State} (h : s.Unmoved t) : t.eligible = s.eligible := by
  unfold State.eligible State.roomForRamp State.budgetInForce State.budget
  rw [h.ramp, h.config, State.halted_congr h.halt]

theorem State.Unmoved.anyDistrict {s t : State} (h : s.Unmoved t) (st : DistrictState) :
    t.anyDistrict st = s.anyDistrict st := by
  unfold State.anyDistrict State.record
  rw [h.districts]

theorem State.Unmoved.noStartOwed {s t : State} (h : s.Unmoved t) (hs : s.NoStartOwed) : t.NoStartOwed := by
  unfold State.NoStartOwed
  rw [h.mode, h.eligible, h.anyDistrict, State.queuedDistricts_congr h.districts]
  exact hs

/-! ### What follows the districts' steps -/

/-- A command that moves nothing the unit reads is followed by nothing, where no start is owed. -/
theorem State.followUp_unmoved {s t : State} (h : s.Unmoved t) (hs : s.NoStartOwed) : State.followUp s t = t :=
  State.followUp_settled (State.queuedDistricts_congr h.districts).symm (h.noStartOwed hs)

/-- A halted station starts no ramp (R154, R161). -/
theorem State.noStartOwed_of_halted {s : State} (h : s.halted = true) : s.NoStartOwed := by
  rintro ⟨_, eligible, _⟩
  unfold State.eligible at eligible
  rw [h] at eligible
  simp at eligible

/-- Where no district waits in QUEUED no start is owed. -/
theorem State.noStartOwed_of_noneQueued {s : State} (h : s.queuedDistricts = []) : s.NoStartOwed :=
  fun ⟨_, _, _, waiting⟩ => waiting h

/-- A command that moves no district of a station that is halted after it is followed by nothing. -/
theorem State.followUp_halted {s t : State} (districts : t.districts = s.districts) (h : t.halted = true) :
    State.followUp s t = t :=
  State.followUp_settled (State.queuedDistricts_congr districts).symm (State.noStartOwed_of_halted h)

/-- With no district QUEUED none is chosen (R155). -/
theorem State.choice_noneQueued {s : State} (h : s.queuedDistricts = []) : s.choice = none := by
  have notQueued (c : District) : (s.record c).state ≠ .queued := by
    intro queued
    have : c ∈ s.queuedDistricts := by
      unfold State.queuedDistricts
      exact List.mem_filter.mpr ⟨by fin_cases c <;> decide, by simp [queued]⟩
    rw [h] at this
    cases this
  unfold State.choice
  split
  · rw [if_neg (fun both => notQueued _ both.1), longestQueued_none_of_empty h]
  · exact longestQueued_none_of_empty h

theorem State.chooseAgain_noneQueued {s : State} (h : s.queuedDistricts = []) :
    s.chooseAgain = { s with ramp := { s.ramp with chosen := s.chooseAgain.ramp.chosen } } := by
  unfold State.chooseAgain
  split
  · dsimp only [State.modRamp]
    rw [State.choice_noneQueued h]
  · rfl

/-- With no district QUEUED after a command, at most the chosen district is given up (R155). -/
theorem State.followUp_noneQueued (before : State) {s : State} (h : s.queuedDistricts = []) :
    State.followUp before s =
      { s with ramp := { s.ramp with chosen := (State.followUp before s).ramp.chosen } } := by
  unfold State.followUp
  dsimp only
  split
  · rw [State.directStart_of_noStartOwed (State.noStartOwed_of_noneQueued h)]
  · have same : s.chooseAgain.queuedDistricts = s.queuedDistricts :=
      State.queuedDistricts_congr (by rw [State.chooseAgain_frame])
    rw [State.directStart_of_noStartOwed (State.noStartOwed_of_noneQueued (same.trans h))]
    exact State.chooseAgain_noneQueued h

theorem State.alert_startRamp (k : District) (s : State) : (s.startRamp k).alert = s.alert :=
  State.alert_moveOff k DistrictRecord.toRamping s

theorem State.alert_directStart (s : State) : s.directStart.alert = s.alert := by
  unfold State.directStart
  split
  · split
    · exact State.alert_startRamp _ s
    · rfl
  · rfl

theorem State.alert_followUp (before s : State) : (State.followUp before s).alert = s.alert := by
  unfold State.followUp
  dsimp only
  rw [State.alert_directStart]
  split
  · rfl
  · rw [State.chooseAgain_frame]

/-- The direct start moves at most a QUEUED district, in QUIET, to RAMPING (R161). -/
theorem State.record_directStart (s : State) (k : District) :
    s.directStart.record k = s.record k ∨
      s.mode = .quiet ∧ (s.record k).state = .queued ∧ s.directStart.record k = (s.record k).toRamping := by
  unfold State.directStart
  split
  · rename_i owed
    split
    · rename_i j longest
      by_cases hk : k = j
      · subst hk
        exact Or.inr ⟨owed.1, longestQueued_queued longest, State.record_moveOff k _ s⟩
      · exact Or.inl ((State.onlyDistrict_startRamp j s).1 k hk).1
    · exact Or.inl rfl
  · exact Or.inl rfl

/-- What follows a command moves at most a QUEUED district, in QUIET, to RAMPING (R161). -/
theorem State.record_followUp (before s : State) (k : District) :
    (State.followUp before s).record k = s.record k ∨
      s.mode = .quiet ∧ (s.record k).state = .queued ∧
        (State.followUp before s).record k = (s.record k).toRamping := by
  unfold State.followUp
  dsimp only
  split
  · exact State.record_directStart s k
  · have h := State.record_directStart s.chooseAgain k
    rw [State.record_chooseAgain, State.mode_of_sameOutside (State.sameOutside_chooseAgain s)] at h
    exact h

end Sys2Proof.Machine
end

section
/-! PROOFS. The beginning and the end of a halt (09): what each does to every district, to the queue and to the ramp
list, in the words of State.haltsDistrict and State.leavesHalted. -/

namespace Sys2Proof.Machine

/-! ### The four districts in turn -/

/-- What each district's step carries one further, taken in a state that still has this district's own record and
relay, the four steps carry from 0 to 4 (R67). -/
theorem State.eachDistrict_induction {f : District → State → State} {P : Nat → State → Prop}
    (only : ∀ (k : District) (s : State), State.onlyDistrict k s (f k s)) (s : State) (start : P 0 s)
    (next : ∀ (k : District) (u : State), u.record k = s.record k → u.relay k = s.relay k →
      State.sameOutsideDistricts s u → P k.val u → P (k.val + 1) (f k u)) : P 4 (s.eachDistrict f) := by
  have o0 := only 0 s
  have o1 := only 1 (f 0 s)
  have o2 := only 2 (f 1 (f 0 s))
  have s1 := State.sameOutsideDistricts_trans o0.2 o1.2
  have s2 := State.sameOutsideDistricts_trans s1 o2.2
  have kept1 := o0.1 1 (by decide)
  have kept2 := And.intro (o0.1 2 (by decide)) (o1.1 2 (by decide))
  have kept3 := And.intro (o0.1 3 (by decide)) (And.intro (o1.1 3 (by decide)) (o2.1 3 (by decide)))
  obtain ⟨r1, _, l1⟩ := kept1
  obtain ⟨⟨r2, _, l2⟩, r2', _, l2'⟩ := kept2
  obtain ⟨⟨r3, _, l3⟩, ⟨r3', _, l3'⟩, r3'', _, l3''⟩ := kept3
  have p1 : P 1 (f 0 s) := next 0 s rfl rfl rfl start
  have p2 : P 2 (f 1 (f 0 s)) := next 1 _ r1 l1 o0.2 p1
  have p3 : P 3 (f 2 (f 1 (f 0 s))) := next 2 _ (r2'.trans r2) (l2'.trans l2) s1 p2
  exact next 3 _ (r3''.trans (r3'.trans r3)) (l3''.trans (l3'.trans l3)) s2 p3

/-- What every district's step keeps, the four steps keep. -/
theorem State.eachDistrict_keeps {f : District → State → State} {P : State → Prop}
    (only : ∀ (k : District) (s : State), State.onlyDistrict k s (f k s))
    (keeps : ∀ (k : District) (s : State), P s → P (f k s)) {s : State} (start : P s) :
    P (s.eachDistrict f) :=
  State.eachDistrict_induction (P := fun _ => P) only s start (fun k u _ _ _ => keeps k u)

/-- What district k's own step brings about, and every step keeps, holds after the four steps. -/
theorem State.eachDistrict_reaches {f : District → State → State} {P : State → Prop} (k : District)
    (only : ∀ (k : District) (s : State), State.onlyDistrict k s (f k s))
    (keeps : ∀ (j : District) (s : State), P s → P (f j s)) (s : State)
    (makes : ∀ u : State, u.record k = s.record k → u.relay k = s.relay k → P (f k u)) :
    P (s.eachDistrict f) := by
  have reached := State.eachDistrict_induction (P := fun n u => k.val < n → P u) only s
    (fun h => absurd h (Nat.not_lt_zero _)) ?_
  · exact reached k.isLt
  · intro j u record relay _ ih h
    by_cases hk : k = j
    · subst hk
      exact makes u record relay
    · have : k.val ≠ j.val := fun e => hk (Fin.ext e)
      exact keeps j u (ih (by omega))

/-! ### Where the entries of the queue come from -/

/-- After a withdrawal an entry stands as it did, or is withdrawn (R137). -/
theorem State.mem_withdraw {kind : Kind} {k : District} {s : State} {x : Entry}
    (h : x ∈ (s.withdraw kind k).queue) : x ∈ s.queue ∨ x.phase = .onLine .withdrawn := by
  by_cases hx : x.frame.kind = kind ∧ x.frame.loc.district = k
  · exact Or.inr (State.withdraw_gone h hx.1 hx.2)
  · obtain ⟨y, hy, he⟩ := List.mem_filterMap.mp h
    unfold Entry.withdrawnFor at he
    split at he
    · rename_i hit
      split at he
      · cases he
      · cases he
        exact absurd hit hx
    · cases he
      exact Or.inl hy

/-- What leaving a state takes from the queue (R52, R76, R137). -/
theorem State.mem_depart {k : District} {s : State} {x : Entry} (h : x ∈ (s.depart k).queue) :
    x ∈ s.queue ∨ x.phase = .onLine .withdrawn := by
  unfold State.depart at h
  cases hs : (s.record k).state <;> rw [hs] at h <;> dsimp only at h
  case queued => exact State.mem_withdraw (kind := .rb) (k := k) h
  case contend => exact State.mem_withdraw h
  all_goals exact Or.inl h

/-- A posting adds an entry of its own frame alone. -/
theorem mem_of_postInto {p : Post} {q : List Entry} {x : Entry} (h : x ∈ (postInto p q).queue) :
    x ∈ q ∨ x.frame = p := by
  unfold postInto at h
  split at h
  · rcases (mem_insertByRank _ _ _).mp h with rfl | h
    · exact Or.inr rfl
    · exact Or.inl (List.mem_of_mem_filter h)
  · split at h
    · rcases (mem_insertByRank _ _ _).mp h with rfl | h
      · exact Or.inr rfl
      · exact Or.inl h
    · unfold overflowPost at h
      split at h
      · split at h
        · rcases (mem_insertByRank _ _ _).mp h with rfl | h
          · exact Or.inr rfl
          · exact Or.inl ((sublist_dropTailWaiting q).subset h)
        · exact Or.inl h
      · exact Or.inl h

theorem State.mem_post {p : Post} {s : State} {x : Entry} (h : x ∈ (s.post p).queue) :
    x ∈ s.queue ∨ x.frame = p := by
  rw [State.queue_post] at h
  unfold State.queueWith at h
  split at h
  · exact mem_of_postInto h
  · exact Or.inl h

/-! ### A district enters HALTED -/

theorem State.enterHalted_of_halted {k : District} {s : State} (h : (s.record k).state = .halted) :
    s.enterHalted k = s := if_pos h

theorem State.enterHalted_of_ramping {k : District} {s : State} (h : (s.record k).state = .ramping) :
    s.enterHalted k = (s.moveOff k DistrictRecord.toHalted).postRe k := by
  unfold State.enterHalted
  rw [h]
  rfl

theorem State.enterHalted_of_other {k : District} {s : State} (halted : (s.record k).state ≠ .halted)
    (ramping : (s.record k).state ≠ .ramping) : s.enterHalted k = s.moveOff k DistrictRecord.toHalted := by
  unfold State.enterHalted
  rw [if_neg halted, if_neg ramping]

/-- The three ways of a district into HALTED: it is there, it moves, or it moves and its RE is posted (R57, R166,
R171). -/
theorem State.enterHalted_cases (k : District) (s : State) :
    (s.record k).state = .halted ∧ s.enterHalted k = s ∨
    (s.record k).state ≠ .halted ∧ (s.record k).state ≠ .ramping ∧
      s.enterHalted k = s.moveOff k DistrictRecord.toHalted ∨
    (s.record k).state = .ramping ∧ s.enterHalted k = (s.moveOff k DistrictRecord.toHalted).postRe k := by
  by_cases halted : (s.record k).state = .halted
  · exact Or.inl ⟨halted, State.enterHalted_of_halted halted⟩
  · by_cases ramping : (s.record k).state = .ramping
    · exact Or.inr (Or.inr ⟨ramping, State.enterHalted_of_ramping ramping⟩)
    · exact Or.inr (Or.inl ⟨halted, ramping, State.enterHalted_of_other halted ramping⟩)

/-- After a district's entry to HALTED an entry of the queue stood there, or is withdrawn, or is an RE. -/
theorem State.mem_enterHalted {k : District} {s : State} {x : Entry} (h : x ∈ (s.enterHalted k).queue) :
    x ∈ s.queue ∨ x.phase = .onLine .withdrawn ∨ x.frame.kind = .re := by
  have moved (h : x ∈ (s.moveOff k DistrictRecord.toHalted).queue) :
      x ∈ s.queue ∨ x.phase = .onLine .withdrawn ∨ x.frame.kind = .re :=
    (State.mem_depart h).imp_right Or.inl
  rcases State.enterHalted_cases k s with ⟨_, he⟩ | ⟨_, _, he⟩ | ⟨_, he⟩ <;> rw [he] at h
  · exact Or.inl h
  · exact moved h
  · rcases State.mem_post h with h | h
    · exact moved h
    · exact Or.inr (Or.inr (by rw [h]; rfl))

/-- A contending district that halts withdraws its FI (R76, R137, R166). -/
theorem State.withdrawn_enterHalted_contend {k : District} {s : State} (hs : (s.record k).state = .contend)
    {x : Entry} (h : x ∈ (s.enterHalted k).queue) (hk : x.frame.kind = .fi)
    (hd : x.frame.loc.district = k) : x.phase = .onLine .withdrawn := by
  rw [State.enterHalted_of_other (by simp [hs]) (by simp [hs]), State.queue_moveOff] at h
  unfold State.depart at h
  rw [hs] at h
  exact State.withdraw_gone h hk hd

/-- A QUEUED district that halts withdraws its RB (R52, R137, R166). -/
theorem State.withdrawn_enterHalted_queued {k : District} {s : State} (hs : (s.record k).state = .queued)
    {x : Entry} (h : x ∈ (s.enterHalted k).queue) (hk : x.frame.kind = .rb)
    (hd : x.frame.loc.district = k) : x.phase = .onLine .withdrawn := by
  rw [State.enterHalted_of_other (by simp [hs]) (by simp [hs]), State.queue_moveOff] at h
  unfold State.depart at h
  rw [hs] at h
  exact State.withdraw_gone (s := s) (k := k) h hk hd

theorem State.engine_enterHalted {k : District} {s : State} (h : (s.record k).state ≠ .halted) :
    (s.enterHalted k).engine k = Engine.cleared := by
  rcases State.enterHalted_cases k s with ⟨hs, _⟩ | ⟨_, _, he⟩ | ⟨_, he⟩
  · exact absurd hs h
  · rw [he, State.engine_moveOff]
  · rw [he, State.postRe, State.engine, State.engines_post]
    exact State.engine_moveOff k _ s

theorem State.relay_enterHalted (k : District) (s : State) : (s.enterHalted k).relay k = s.relay k := by
  rcases State.enterHalted_cases k s with ⟨_, he⟩ | ⟨_, _, he⟩ | ⟨_, he⟩ <;> rw [he]
  · exact State.relay_moveOff k k _ s
  · rw [State.postRe, State.relay, State.relays_post]
    exact State.relay_moveOff k k _ s

theorem State.alert_enterHalted (k : District) (s : State) : (s.enterHalted k).alert = s.alert := by
  rcases State.enterHalted_cases k s with ⟨_, he⟩ | ⟨_, _, he⟩ | ⟨_, he⟩ <;> rw [he]
  · exact State.alert_moveOff k _ s
  · rw [State.postRe, State.alert_post]
    exact State.alert_moveOff k _ s

/-! ### The ramp list through a halt -/

/-- The ramp list unit lost own entries alone; its choice and its RB district aside it is as it was (R149). -/
structure RampUnit.OwnCut (before after : RampUnit) : Prop where
  floor : after.floor = before.floor
  holdoff : after.holdoff = before.holdoff
  intentAge : after.intentAge = before.intentAge
  sub : ∀ e ∈ after.list, e ∈ before.list
  peers : ∀ e ∈ before.list, e.isOwn = false → e ∈ after.list

theorem RampUnit.OwnCut.refl (r : RampUnit) : r.OwnCut r :=
  ⟨rfl, rfl, rfl, fun _ h => h, fun _ h _ => h⟩

theorem RampUnit.OwnCut.trans {r r' r'' : RampUnit} (h : r.OwnCut r') (h' : r'.OwnCut r'') : r.OwnCut r'' :=
  ⟨h'.floor.trans h.floor, h'.holdoff.trans h.holdoff, h'.intentAge.trans h.intentAge,
    fun e he => h.sub e (h'.sub e he), fun e he own => h'.peers e (h.peers e he own) own⟩

theorem State.ownCut_post (p : Post) (s : State) : s.ramp.OwnCut (s.post p).ramp := by
  rw [State.post_frame]
  exact ⟨rfl, rfl, rfl, fun _ h => h, fun _ h _ => h⟩

theorem State.ownCut_depart (k : District) (s : State) : s.ramp.OwnCut (s.depart k).ramp := by
  unfold State.depart
  cases (s.record k).state
  case ramping =>
    refine ⟨rfl, rfl, rfl, fun e he => List.mem_of_mem_filter he, fun e he own => ?_⟩
    exact List.mem_filter.mpr ⟨he, by simp [own]⟩
  case queued => exact ⟨rfl, rfl, rfl, fun _ h => h, fun _ h _ => h⟩
  all_goals exact RampUnit.OwnCut.refl s.ramp

theorem State.ownCut_enterHalted (k : District) (s : State) : s.ramp.OwnCut (s.enterHalted k).ramp := by
  have moved : s.ramp.OwnCut (s.moveOff k DistrictRecord.toHalted).ramp := State.ownCut_depart k s
  rcases State.enterHalted_cases k s with ⟨_, he⟩ | ⟨_, _, he⟩ | ⟨_, he⟩ <;> rw [he]
  · exact RampUnit.OwnCut.refl s.ramp
  · exact moved
  · exact moved.trans (State.ownCut_post _ _)

/-! ### A halt begins -/

theorem State.ownCut_beginHalt (s : State) : s.ramp.OwnCut s.beginHalt.ramp :=
  State.eachDistrict_keeps (P := fun t => s.ramp.OwnCut t.ramp) State.onlyDistrict_enterHalted
    (fun k t h => h.trans (State.ownCut_enterHalted k t)) (RampUnit.OwnCut.refl s.ramp)

theorem State.alert_beginHalt (s : State) : s.beginHalt.alert = s.alert :=
  State.eachDistrict_keeps (P := fun t => t.alert = s.alert) State.onlyDistrict_enterHalted
    (fun k t h => (State.alert_enterHalted k t).trans h) rfl

theorem State.queuedDistricts_beginHalt (s : State) : s.beginHalt.queuedDistricts = [] := by
  unfold State.queuedDistricts
  refine List.filter_eq_nil_iff.mpr fun k _ => ?_
  rw [State.record_beginHalt_halted s k]
  decide

/-- A property of entries that withdrawn entries and REs have is kept by the beginning of a halt. -/
theorem State.queue_beginHalt_keeps {R : Entry → Prop} {s : State} (start : ∀ x ∈ s.queue, R x)
    (withdrawn : ∀ x : Entry, x.phase = .onLine .withdrawn → R x)
    (re : ∀ x : Entry, x.frame.kind = .re → R x) : ∀ x ∈ s.beginHalt.queue, R x :=
  State.eachDistrict_keeps (P := fun t => ∀ x ∈ t.queue, R x) State.onlyDistrict_enterHalted
    (fun _ _ h x hx => (State.mem_enterHalted hx).elim (h x) (fun h' => h'.elim (withdrawn x) (re x))) start

/-- The frames of a kind that district k's own entry to HALTED withdraws stay withdrawn to the end of the step. -/
theorem State.withdrawn_beginHalt {s : State} {k : District} {kind : Kind} (notRe : kind ≠ .re)
    (gone : ∀ u : State, u.record k = s.record k → ∀ x ∈ (u.enterHalted k).queue, x.frame.kind = kind →
      x.frame.loc.district = k → x.phase = .onLine .withdrawn) :
    ∀ x ∈ s.beginHalt.queue, x.frame.kind = kind → x.frame.loc.district = k →
      x.phase = .onLine .withdrawn := by
  refine State.eachDistrict_reaches (P := fun t => ∀ x ∈ t.queue, x.frame.kind = kind →
    x.frame.loc.district = k → x.phase = .onLine .withdrawn) k State.onlyDistrict_enterHalted ?_ s
    (fun u record _ => gone u record)
  intro j u before x hx hk hd
  rcases State.mem_enterHalted hx with h | h | h
  · exact before x h hk hd
  · exact h
  · exact absurd (hk.symm.trans h) notRe

/-- A HALTED district has its gate off (R40). -/
theorem State.gate_of_halted {s : State} {k : District} (h : (s.record k).state = .halted) :
    s.gate k = false := by
  unfold State.gate DistrictRecord.gate
  rw [h]

/-- The record that a district takes into a halt: one that is HALTED keeps its own (R166 to R168, R171). -/
theorem State.record_beginHalt (s : State) (k : District) :
    s.beginHalt.record k =
      if (s.record k).state = .halted then s.record k else (s.record k).toHalted := by
  obtain ⟨u, record, _, _, _, after, _, _⟩ :=
    State.record_eachDistrict State.onlyDistrict_enterHalted s k
  rw [← record]
  refine Eq.trans after ?_
  split
  · rename_i h
    rw [State.enterHalted_of_halted h]
  · rename_i h
    exact State.record_enterHalted k u h

theorem State.relay_beginHalt (s : State) (k : District) : s.beginHalt.relay k = s.relay k := by
  obtain ⟨u, _, _, relay, _, _, _, after⟩ :=
    State.record_eachDistrict State.onlyDistrict_enterHalted s k
  exact after.trans ((State.relay_enterHalted k u).trans relay)

theorem State.engine_beginHalt {s : State} {k : District} (h : (s.record k).state ≠ .halted) :
    s.beginHalt.engine k = Engine.cleared := by
  obtain ⟨u, record, _, _, _, _, after, _⟩ :=
    State.record_eachDistrict State.onlyDistrict_enterHalted s k
  rw [← record] at h
  exact after.trans (State.engine_enterHalted h)

/-- The beginning of a halt does to each district what R166 to R168 say. -/
theorem State.haltsDistrict_beginHalt (s : State) (k : District) : s.haltsDistrict s.beginHalt k := by
  have stays (h : (s.record k).state = .halted) : s.beginHalt.record k = s.record k := by
    rw [State.record_beginHalt, if_pos h]
  have enters (h : (s.record k).state ≠ .halted) : s.beginHalt.record k = (s.record k).toHalted := by
    rw [State.record_beginHalt, if_neg h]
  have cls (st : DistrictState) (hs : (s.record k).state = st) (h : st ≠ .halted) :
      (s.beginHalt.record k).returnClass = (s.record k).classOnHalt := by
    rw [enters (by rw [hs]; exact h)]
    rfl
  refine ⟨stays, ?_, ?_, ?_, ?_, ?_, ?_, ?_, ?_, ?_⟩
  · intro h
    have gate := State.gate_of_halted (State.record_beginHalt_halted s k)
    have engine := State.engine_beginHalt h
    have relay := State.relay_beginHalt s k
    rw [enters h]
    exact ⟨rfl, gate, engine, rfl, rfl, rfl, rfl, rfl, rfl, rfl, rfl, rfl, rfl, rfl, relay, beq_iff_eq⟩
  · rintro (h | h | h) <;> rw [cls _ h (by decide), DistrictRecord.classOnHalt, h]
  · intro h notProbe
    rw [cls _ h (by decide), DistrictRecord.classOnHalt, h]
    exact if_neg notProbe
  · intro h probe
    rw [cls _ h (by decide), DistrictRecord.classOnHalt, h]
    exact if_pos probe
  · rintro (h | h) <;> rw [cls _ h (by decide), DistrictRecord.classOnHalt, h]
  · intro h
    rw [cls _ h (by decide), DistrictRecord.classOnHalt, h]
  · intro h
    rw [cls _ h (by decide), DistrictRecord.classOnHalt, h]
  · intro h
    exact State.withdrawn_beginHalt (by decide)
      (fun u record x => State.withdrawn_enterHalted_contend (by rw [record]; exact h))
  · intro h
    exact State.withdrawn_beginHalt (by decide)
      (fun u record x => State.withdrawn_enterHalted_queued (by rw [record]; exact h))

/-! ### A cause is set -/

/-- The state in which the districts enter HALTED: the cause is set, and LINE_STOP has emptied the ramp list and
withdrawn a pending RS (R150, R165, R172; log entry 29). -/
def State.causeSet (c : HaltCause) (s : State) : State :=
  let marked := { s with halt := s.halt.put c true }
  if c = .lineStop then marked.emptyRampList.withdraw .rs 0 else marked

theorem State.setCause_of_halted {s : State} (c : HaltCause) (h : s.halted = true) :
    s.setCause c = s.causeSet c := if_pos h

theorem State.setCause_of_running {s : State} (c : HaltCause) (h : s.halted = false) :
    s.setCause c = (s.causeSet c).beginHalt := by
  unfold State.setCause State.causeSet
  rw [h]
  rfl

/-- What a cause set moves before the districts' steps. -/
theorem State.causeSet_frame (c : HaltCause) (s : State) :
    s.causeSet c = { s with halt := s.halt.put c true, queue := (s.causeSet c).queue,
                            ramp := (s.causeSet c).ramp } := by
  cases c <;> rfl

theorem HaltCauses.present_put (h : HaltCauses) (c : HaltCause) :
    ((h.put c true).start || (h.put c true).lineStop || (h.put c true).supply) = true := by
  cases c <;> simp [HaltCauses.put]

theorem State.halted_setCause (c : HaltCause) (s : State) : (s.setCause c).halted = true := by
  unfold State.halted
  rw [State.halt_setCause]
  exact HaltCauses.present_put s.halt c

/-- The setting of a cause moves no more than the causes and what a halt moves. -/
theorem State.setCause_frame (c : HaltCause) (s : State) :
    s.setCause c = { s with halt := s.halt.put c true, districts := (s.setCause c).districts,
                            engines := (s.setCause c).engines, relays := (s.setCause c).relays,
                            queue := (s.setCause c).queue, ramp := (s.setCause c).ramp,
                            alert := (s.setCause c).alert } := by
  cases h : s.halted
  · rw [State.setCause_of_running c h]
    have marked : State.sameOutsideDistricts { s with halt := s.halt.put c true } (s.causeSet c) := by
      cases c <;> rfl
    exact State.sameOutsideDistricts_trans marked (State.sameOutside_beginHalt _)
  · rw [State.setCause_of_halted c h]
    cases c <;> rfl

/-- What follows the setting of a cause moves at most the chosen district (R155). -/
theorem State.followUp_setCause {s m : State} (districts : m.districts = s.districts) (c : HaltCause) :
    State.followUp s (m.setCause c) =
      { m.setCause c with
        ramp := { (m.setCause c).ramp with chosen := (State.followUp s (m.setCause c)).ramp.chosen } } := by
  cases h : m.halted
  · refine State.followUp_noneQueued s ?_
    rw [State.setCause_of_running c h]
    exact State.queuedDistricts_beginHalt _
  · have marked : (m.setCause c).districts = m.districts := by
      rw [State.setCause_of_halted c h, State.causeSet_frame]
    rw [State.followUp_halted (marked.trans districts) (State.halted_setCause c m)]

/-- What a halt does to a district is read of its record, engine, relay and of the queue alone. -/
theorem State.haltsDistrict_of_same {s s' t t' : State} {k : District}
    (record : s'.record k = s.record k) (relay : s'.relay k = s.relay k) (districts : t'.districts = t.districts)
    (engines : t'.engines = t.engines) (relays : t'.relays = t.relays) (queue : t'.queue = t.queue)
    (h : s.haltsDistrict t k) : s'.haltsDistrict t' k := by
  have record' : t'.record k = t.record k := congrArg (fun q => PerDistrict.get q k) districts
  have engine' : t'.engine k = t.engine k := congrArg (fun q => PerDistrict.get q k) engines
  have relay' : t'.relay k = t.relay k := congrArg (fun q => PerDistrict.get q k) relays
  unfold State.haltsDistrict State.gate at h ⊢
  rw [record, relay, record', engine', relay', queue]
  exact h

/-- Whatever its state, a district that a halt takes is HALTED with its gate off, its n and last fault kept (R166). -/
theorem State.haltsDistrict_keeps {s t : State} {k : District} (h : s.haltsDistrict t k) :
    (t.record k).state = .halted ∧ t.gate k = false ∧ (t.record k).n = (s.record k).n ∧
      (t.record k).lastFault = (s.record k).lastFault := by
  obtain ⟨stays, enters, _⟩ := h
  by_cases halted : (s.record k).state = .halted
  · have same := stays halted
    exact ⟨by rw [same]; exact halted, State.gate_of_halted (by rw [same]; exact halted), by rw [same],
      by rw [same]⟩
  · obtain ⟨state, gate, _, _, _, _, _, _, n, lastFault, _⟩ := enters halted
    exact ⟨state, gate, n, lastFault⟩

/-- A cause set in a station that was not halted halts every district, and what follows leaves that so (R165). -/
theorem State.haltsDistrict_followUp_setCause {s m : State} (k : District)
    (districts : m.districts = s.districts) (relays : m.relays = s.relays) (c : HaltCause)
    (running : m.halted = false) : s.haltsDistrict (State.followUp s (m.setCause c)) k := by
  have record : s.record k = (m.causeSet c).record k := by
    rw [State.causeSet_frame]
    exact (congrArg (fun q => PerDistrict.get q k) districts).symm
  have relay : s.relay k = (m.causeSet c).relay k := by
    rw [State.causeSet_frame]
    exact (congrArg (fun q => PerDistrict.get q k) relays).symm
  rw [State.followUp_setCause districts, State.setCause_of_running c running]
  exact State.haltsDistrict_of_same (t := (m.causeSet c).beginHalt) record relay rfl rfl rfl rfl
    (State.haltsDistrict_beginHalt _ k)

/-! ### A district leaves HALTED -/

theorem State.record_enterProbing (k : District) (s : State) :
    (s.enterProbing k).record k =
      if s.relayDisagrees k = true then { (s.record k).toProbing with lastFault := .relay }.toLocked
      else (s.record k).toProbing := by
  have moved : (s.moveOff k DistrictRecord.toProbing).relayDisagrees k = s.relayDisagrees k :=
    State.relayDisagrees_congr (by rw [State.record_moveOff]; rfl) (State.relay_moveOff k k _ s)
  unfold State.enterProbing
  dsimp only
  rw [moved]
  split
  · rw [State.record_lockForRelay, State.record_moveOff]
  · exact State.record_moveOff k _ s

theorem State.alert_lockForRelay (k : District) (s : State) : (s.lockForRelay k).alert = true := by
  unfold State.lockForRelay State.postTr
  rw [State.alert_post]
  exact State.alert_enterLocked k _

/-- The entry to PROBING sets the latch for a relay fault alone (R49, R85, R193). -/
theorem State.alert_enterProbing (k : District) (s : State) :
    (s.enterProbing k).alert = (s.relayDisagrees k || s.alert) := by
  have moved : (s.moveOff k DistrictRecord.toProbing).relayDisagrees k = s.relayDisagrees k :=
    State.relayDisagrees_congr (by rw [State.record_moveOff]; rfl) (State.relay_moveOff k k _ s)
  unfold State.enterProbing
  dsimp only
  rw [moved]
  cases s.relayDisagrees k
  · exact State.alert_moveOff k _ s
  · exact State.alert_lockForRelay k _

/-- The record of a HALTED district after the end of a halt, by its return class (R170, R171). -/
def State.recordAfterHalt (s : State) (k : District) : DistrictRecord :=
  let d := s.record k
  if d.state = .halted ∧ d.confirmPending = false then
    match d.returnClass with
    | .queue => d.toQueued
    | .cool => d.toCoolingAfterHalt
    | .probe =>
      if s.relayDisagrees k = true then { d.toProbing with lastFault := .relay }.toLocked else d.toProbing
    | .dark => d.toDark
    | .locked => d.toLocked
  else d

theorem State.record_leaveHalted (k : District) (s : State) :
    (s.leaveHalted k).record k = s.recordAfterHalt k := by
  unfold State.leaveHalted State.recordAfterHalt
  dsimp only
  split
  · cases (s.record k).returnClass with
    | queue => exact State.record_moveOff k _ s
    | cool => exact State.record_moveOff k _ s
    | probe => exact State.record_enterProbing k s
    | dark => exact State.record_moveOff k _ s
    | locked => exact State.record_enterLocked k s
  · rfl

/-- Leaving HALTED never clears the latch (R193, R195). -/
theorem State.alert_leaveHalted_keeps (k : District) (s : State) (h : s.alert = true) :
    (s.leaveHalted k).alert = true := by
  unfold State.leaveHalted
  dsimp only
  split
  · cases (s.record k).returnClass with
    | queue => exact (State.alert_moveOff k _ s).trans h
    | cool => exact (State.alert_moveOff k _ s).trans h
    | probe =>
      dsimp only
      rw [State.alert_enterProbing, h, Bool.or_true]
    | dark => exact (State.alert_moveOff k _ s).trans h
    | locked => exact State.alert_enterLocked k s
  · exact h

/-- A district that leaves HALTED to LOCKED sets the latch (R58, R170, R194). -/
theorem State.alert_leaveHalted_sets {k : District} {s : State} (halted : (s.record k).state = .halted)
    (settled : (s.record k).confirmPending = false)
    (cause : (s.record k).returnClass = .locked ∨
      (s.record k).returnClass = .probe ∧ s.relayDisagrees k = true) :
    (s.leaveHalted k).alert = true := by
  unfold State.leaveHalted
  dsimp only
  rw [if_pos ⟨halted, settled⟩]
  rcases cause with h | ⟨h, disagrees⟩ <;> rw [h]
  · exact State.alert_enterLocked k s
  · dsimp only
    rw [State.alert_enterProbing, disagrees, Bool.true_or]

/-! ### A halt ends -/

theorem State.record_endHalt (s : State) (k : District) : s.endHalt.record k = s.recordAfterHalt k := by
  obtain ⟨u, record, _, relay, _, after, _, _⟩ :=
    State.record_eachDistrict State.onlyDistrict_leaveHalted s k
  have same : u.recordAfterHalt k = s.recordAfterHalt k := by
    unfold State.recordAfterHalt
    rw [State.relayDisagrees_congr (by rw [record]) relay, record]
  exact after.trans ((State.record_leaveHalted k u).trans same)

theorem State.alert_endHalt_sets {k : District} {s : State} (halted : (s.record k).state = .halted)
    (settled : (s.record k).confirmPending = false)
    (cause : (s.record k).returnClass = .locked ∨
      (s.record k).returnClass = .probe ∧ s.relayDisagrees k = true) :
    s.endHalt.alert = true := by
  refine State.eachDistrict_reaches (P := fun t => t.alert = true) k State.onlyDistrict_leaveHalted
    State.alert_leaveHalted_keeps s fun u record relay => ?_
  have disagrees := State.relayDisagrees_congr (s := s) (t := u) (by rw [record]) relay
  refine State.alert_leaveHalted_sets (by rw [record]; exact halted) (by rw [record]; exact settled) ?_
  rw [record, disagrees]
  exact cause

/-- The end of a halt does to each district what R170 and R171 say. -/
theorem State.leavesHalted_endHalt (s : State) (k : District) : s.leavesHalted s.endHalt k := by
  have record := State.record_endHalt s k
  unfold State.recordAfterHalt at record
  intro halted
  refine ⟨?_, ?_⟩
  · intro isPending
    rw [record]
    exact if_neg (fun both => by simp [isPending] at both)
  · intro settled
    dsimp only at record
    rw [if_pos ⟨halted, settled⟩] at record
    have latch := State.alert_endHalt_sets halted settled
    rw [record]
    cases cls : (s.record k).returnClass with
    | queue => exact ⟨rfl, rfl, fun _ => ⟨rfl, Or.inl rfl⟩, nofun, nofun, nofun, nofun, nofun⟩
    | cool => exact ⟨rfl, rfl, nofun, fun _ => ⟨rfl, rfl, rfl⟩, nofun, nofun, nofun, nofun⟩
    | dark => exact ⟨rfl, rfl, nofun, nofun, nofun, nofun, fun _ => rfl, nofun⟩
    | locked => exact ⟨rfl, rfl, nofun, nofun, nofun, nofun, nofun, fun _ => ⟨rfl, latch (Or.inl cls)⟩⟩
    | probe =>
      cases disagrees : s.relayDisagrees k with
      | false => exact ⟨rfl, rfl, nofun, nofun, fun _ _ => ⟨rfl, rfl⟩, nofun, nofun, nofun⟩
      | true =>
        exact ⟨rfl, rfl, nofun, nofun, nofun, fun _ _ => ⟨rfl, rfl, latch (Or.inr ⟨cls, disagrees⟩)⟩, nofun,
          nofun⟩

/-- What the end of a halt does to a district is read of its own record and relay (R170). -/
theorem State.leavesHalted_of_same {s s' t : State} {k : District} (record : s'.record k = s.record k)
    (relay : s'.relay k = s.relay k) (h : s.leavesHalted t k) : s'.leavesHalted t k := by
  have disagrees := State.relayDisagrees_congr (s := s) (t := s') (by rw [record]) relay
  unfold State.leavesHalted at h ⊢
  rw [record, disagrees]
  exact h

/-- What follows the end of a halt leaves each district as R170 and R171 say, but that one of class QUEUE may start
its ramp in QUIET (R161). -/
theorem State.leavesHalted_followUp {s t : State} {k : District} (before : State) (h : s.leavesHalted t k) :
    s.leavesHalted (State.followUp before t) k := by
  have mode : (State.followUp before t).mode = t.mode :=
    State.mode_of_sameOutside (State.sameOutside_followUp before t)
  have alert := State.alert_followUp before t
  unfold State.leavesHalted at h ⊢
  dsimp only at h ⊢
  rw [mode, alert]
  rcases State.record_followUp before t k with same | ⟨quiet, queued, ramps⟩
  · rw [same]
    exact h
  · intro halted
    obtain ⟨stays, leaves⟩ := h halted
    refine ⟨fun isPending => ?_, fun settled => ?_⟩
    · rw [stays isPending, halted] at queued
      cases queued
    · obtain ⟨n, hold, queue, cool, probe, fault, dark, locked⟩ := leaves settled
      rw [queued] at cool probe fault dark locked
      rw [ramps]
      exact ⟨n, hold, fun c => ⟨(queue c).1, Or.inr ⟨quiet, rfl, rfl⟩⟩, fun c => (nomatch (cool c).1),
        fun c r => (nomatch (probe c r).1), fun c r => (nomatch (fault c r).1), fun c => (nomatch dark c),
        fun c => (nomatch (locked c).1)⟩

/-- A cause cleared that was not the last one leaves the districts HALTED (R165). -/
theorem State.clearCause_of_halted {s : State} (c : HaltCause) (h : (s.clearCause c).halted = true) :
    s.clearCause c = { s with halt := s.halt.put c false } := by
  have left : { s with halt := s.halt.put c false }.halted = true :=
    (State.halted_congr (s := s.clearCause c) (State.halt_clearCause c s).symm).trans h
  unfold State.clearCause
  exact if_neg (fun both => by simp [left] at both)

/-- The last cause cleared ends the halt (R165; log entry 31 for the mark). -/
theorem State.clearCause_of_last {s : State} {c : HaltCause} (halted : s.halted = true)
    (h : (s.clearCause c).halted = false) :
    s.clearCause c = { s with halt := s.halt.put c false, haltEnded := true }.endHalt := by
  have left : { s with halt := s.halt.put c false }.halted = false :=
    (State.halted_congr (s := s.clearCause c) (State.halt_clearCause c s).symm).trans h
  unfold State.clearCause
  exact if_pos ⟨halted, left⟩

/-- The clearing of a cause moves no more than the causes, the mark of a halt's end and what that end moves. -/
theorem State.clearCause_frame (c : HaltCause) (s : State) :
    s.clearCause c = { s with halt := s.halt.put c false, haltEnded := (s.clearCause c).haltEnded,
                              districts := (s.clearCause c).districts, engines := (s.clearCause c).engines,
                              relays := (s.clearCause c).relays, queue := (s.clearCause c).queue,
                              ramp := (s.clearCause c).ramp, alert := (s.clearCause c).alert } := by
  unfold State.clearCause
  dsimp only
  split
  · have same := State.sameOutside_endHalt { s with halt := s.halt.put c false, haltEnded := true }
    unfold State.sameOutsideDistricts at same
    conv_lhs => rw [same]
    conv_rhs => rw [same]
  · rfl

end Sys2Proof.Machine
end

section
/-! PROOFS. Sensing (01): the strap readings and the supply monitor. -/

namespace Sys2Proof.Machine

/-! ### Strap readings -/

theorem mem_recordReading (r : Reading) (rs : List Reading) : r ∈ recordReading r rs :=
  List.mem_append_right _ List.mem_cons_self

/-- A reading of another strap or round stays recorded (R4, R181). -/
theorem mem_recordReading_of_other {r x : Reading} {rs : List Reading} (h : x ∈ rs)
    (other : (x.strap, x.round) ≠ (r.strap, r.round)) : x ∈ recordReading r rs := by
  refine List.mem_append_left _ (List.mem_filter.mpr ⟨h, ?_⟩)
  rw [Bool.not_eq_true', Bool.eq_false_iff]
  intro same
  obtain ⟨strap, round⟩ := Bool.and_eq_true_iff.mp same
  exact other (Prod.ext (beq_iff_eq.mp strap) (beq_iff_eq.mp round))

theorem State.strapReading_outside_straps (strap : Fin 6) (round : Fin 4) (code : Code) {s : State}
    (h : s.mode ≠ .straps) : s.strapReading strap round code = s := if_neg h

/-- A reading before the last one is recorded and the converter goes on (R4). -/
theorem State.strapReading_before_last {strap : Fin 6} {round : Fin 4} {code : Code} {s : State}
    (h : s.mode = .straps) (few : (recordReading ⟨strap, round, code⟩ s.readings).length < Config.NSTRAP) :
    s.strapReading strap round code =
      { s with readings := recordReading ⟨strap, round, code⟩ s.readings,
               strPins := s.strPins.set strap.val code,
               converter := .straps (6 * round.val + strap.val + 1) 0 } := by
  unfold State.strapReading
  rw [if_pos h]
  exact if_neg (Nat.not_le.mpr few)

/-! ### The run counters -/

theorem SupplyMonitor.counted_low {v : Code} (m : SupplyMonitor) (h : v.toNat < 360) :
    m.counted v = { m with lowRun := min (m.lowRun + 1) Config.NLOW, highRun := 0 } := by
  have cls : supplyClass v = .low := if_pos h
  unfold SupplyMonitor.counted
  rw [cls]

theorem SupplyMonitor.counted_band {v : Code} (m : SupplyMonitor) (low : 360 ≤ v.toNat) (high : v.toNat < 400) :
    m.counted v = { m with lowRun := 0, highRun := 0 } := by
  have cls : supplyClass v = .band := (if_neg (Nat.not_lt.mpr low)).trans (if_pos high)
  unfold SupplyMonitor.counted
  rw [cls]

theorem SupplyMonitor.counted_high {v : Code} (m : SupplyMonitor) (h : 400 ≤ v.toNat) :
    m.counted v = { m with lowRun := 0, highRun := min (m.highRun + 1) Config.NHIGH } := by
  have cls : supplyClass v = .high := by
    have above : ¬ v.toNat < 360 := by omega
    exact (if_neg above).trans (if_neg (Nat.not_lt.mpr h))
  unfold SupplyMonitor.counted
  rw [cls]

@[simp] theorem SupplyMonitor.present_counted (m : SupplyMonitor) (v : Code) :
    (m.counted v).present = m.present := by
  unfold SupplyMonitor.counted
  cases supplyClass v <;> rfl

/-- The low run comes to NLOW at a low sample, from NLOW − 1 or from NLOW itself. -/
theorem SupplyMonitor.counted_lowRun_full {m : SupplyMonitor} {v : Code} :
    (m.counted v).lowRun = Config.NLOW ↔ v.toNat < 360 ∧ 3 ≤ m.lowRun := by
  by_cases low : v.toNat < 360
  · rw [SupplyMonitor.counted_low m low]
    simp only [Config.NLOW]
    omega
  · have none : (m.counted v).lowRun = 0 := by
      by_cases high : 400 ≤ v.toNat
      · rw [SupplyMonitor.counted_high m high]
      · rw [SupplyMonitor.counted_band m (by omega) (by omega)]
    rw [none]
    simp [Config.NLOW, low]

/-- The high run comes to NHIGH at a high sample, from NHIGH − 1 or from NHIGH itself. -/
theorem SupplyMonitor.counted_highRun_full {m : SupplyMonitor} {v : Code} :
    (m.counted v).highRun = Config.NHIGH ↔ 400 ≤ v.toNat ∧ 39 ≤ m.highRun := by
  by_cases high : 400 ≤ v.toNat
  · rw [SupplyMonitor.counted_high m high]
    simp only [Config.NHIGH]
    omega
  · have none : (m.counted v).highRun = 0 := by
      by_cases low : v.toNat < 360
      · rw [SupplyMonitor.counted_low m low]
      · rw [SupplyMonitor.counted_band m (by omega) (by omega)]
    rw [none]
    simp [Config.NHIGH, high]

/-! ### A supply sample -/

/-- The part with a supply sample handed on and the supply monitor at `m` (R7). -/
def State.supplyTaken (s : State) (v : Code) (m : SupplyMonitor) : State :=
  { s with vsenPin := v, converter := s.converter.handedOn 4, supply := m }

/-- The supply is lost: the flag is cleared and SUPPLY set (R9). -/
theorem State.supplySample_lost {v : Code} {s : State} (mode : s.mode ≠ .straps)
    (low : (s.supply.counted v).lowRun = Config.NLOW) (present : s.supply.present = true) :
    s.supplySample v =
      State.followUp s
        ((s.supplyTaken v { s.supply.counted v with present := false }).setCause .supply) := by
  unfold State.supplySample
  rw [if_neg mode]
  exact if_pos ⟨low, (SupplyMonitor.present_counted _ v).trans present⟩

/-- The supply is back: the flag is set and SUPPLY cleared (R10). -/
theorem State.supplySample_restored {v : Code} {s : State} (mode : s.mode ≠ .straps)
    (high : (s.supply.counted v).highRun = Config.NHIGH) (absent : s.supply.present = false) :
    s.supplySample v =
      State.followUp s
        ((s.supplyTaken v { s.supply.counted v with present := true }).clearCause .supply) := by
  have before : (s.supply.counted v).present = false := (SupplyMonitor.present_counted _ v).trans absent
  unfold State.supplySample
  rw [if_neg mode]
  exact (if_neg (fun both => by simp [absent] at both)).trans (if_pos ⟨high, before⟩)

/-- Any other sample moves the counters alone. -/
theorem State.supplySample_counted {v : Code} {s : State} (mode : s.mode ≠ .straps)
    (kept : ¬ ((s.supply.counted v).lowRun = Config.NLOW ∧ s.supply.present = true))
    (keptOut : ¬ ((s.supply.counted v).highRun = Config.NHIGH ∧ s.supply.present = false)) :
    s.supplySample v = s.supplyTaken v (s.supply.counted v) := by
  rw [← SupplyMonitor.present_counted s.supply v] at kept keptOut
  unfold State.supplySample
  rw [if_neg mode]
  exact (if_neg kept).trans (if_neg keptOut)

theorem State.supply_setCause (c : HaltCause) (s : State) : (s.setCause c).supply = s.supply := by
  rw [State.setCause_frame]

theorem State.supply_clearCause (c : HaltCause) (s : State) : (s.clearCause c).supply = s.supply := by
  rw [State.clearCause_frame]

theorem State.supply_followUp (before s : State) : (State.followUp before s).supply = s.supply :=
  State.supply_of_sameOutside (State.sameOutside_followUp before s)

/-- The supply monitor after a sample: its counters, and a flag (R8). -/
theorem State.supply_supplySample {v : Code} {s : State} (mode : s.mode ≠ .straps) :
    ∃ flag : Bool, (s.supplySample v).supply = { s.supply.counted v with present := flag } := by
  by_cases lost : (s.supply.counted v).lowRun = Config.NLOW ∧ s.supply.present = true
  · refine ⟨false, ?_⟩
    rw [State.supplySample_lost mode lost.1 lost.2, State.supply_followUp, State.supply_setCause]
    rfl
  · by_cases restored : (s.supply.counted v).highRun = Config.NHIGH ∧ s.supply.present = false
    · refine ⟨true, ?_⟩
      rw [State.supplySample_restored mode restored.1 restored.2, State.supply_followUp,
        State.supply_clearCause]
      rfl
    · exact ⟨_, by rw [State.supplySample_counted mode lost restored]; rfl⟩

/-! ### What a supply sample does to the districts -/

/-- The fourth low sample halts the districts of a station not halted (R9, R165). -/
theorem State.supplySample_low_halts {v : Code} {s : State} (mode : s.mode ≠ .straps)
    (low : (s.supply.counted v).lowRun = Config.NLOW) (present : s.supply.present = true) :
    (s.supplySample v).supply.present = false ∧ (s.supplySample v).halt = { s.halt with supply := true } ∧
    (s.halted = false → ∀ k : District, s.haltsDistrict (s.supplySample v) k) ∧
    (s.halted = true → (s.supplySample v).districts = s.districts) ∧
    (∀ e ∈ s.ramp.list, e.isOwn = false → e ∈ (s.supplySample v).ramp.list) := by
  rw [State.supplySample_lost mode low present]
  let m := s.supplyTaken v { s.supply.counted v with present := false }
  have follow := State.followUp_setCause (s := s) (m := m) rfl .supply
  refine ⟨?_, ?_, ?_, ?_, ?_⟩
  · rw [State.supply_followUp, State.supply_setCause]
    rfl
  · rw [follow]
    exact State.halt_setCause .supply m
  · intro running k
    exact State.haltsDistrict_followUp_setCause (m := m) k rfl rfl .supply running
  · intro halted
    rw [follow, State.setCause_of_halted (s := m) .supply halted]
    rfl
  · intro e he own
    rw [follow]
    show e ∈ (m.setCause .supply).ramp.list
    cases h : m.halted
    · rw [State.setCause_of_running .supply h]
      exact (State.ownCut_beginHalt _).peers e he own
    · rw [State.setCause_of_halted .supply h]
      exact he

/-- The fortieth high sample ends a halt that SUPPLY alone still held (R10, R165, R170). -/
theorem State.supplySample_high_restores {v : Code} {s : State} (mode : s.mode ≠ .straps) (ok : s.HaltOk)
    (high : (s.supply.counted v).highRun = Config.NHIGH) (absent : s.supply.present = false) :
    (s.supplySample v).supply.present = true ∧ (s.supplySample v).halt = { s.halt with supply := false } ∧
    ((s.supplySample v).halted = false → ∀ k : District, s.leavesHalted (s.supplySample v) k) ∧
    ((s.supplySample v).halted = true → (s.supplySample v).districts = s.districts) := by
  rw [State.supplySample_restored mode high absent]
  let m := s.supplyTaken v { s.supply.counted v with present := true }
  obtain ⟨_, _, _, supply⟩ := ok
  have halted : m.halted = true := by
    show (s.halt.start || s.halt.lineStop || s.halt.supply) = true
    rw [supply, absent]
    exact Bool.or_true _
  have halt : (State.followUp s (m.clearCause .supply)).halt = (m.clearCause .supply).halt :=
    State.halt_of_sameOutside (State.sameOutside_followUp s _)
  have same := State.halted_congr halt
  refine ⟨?_, ?_, ?_, ?_⟩
  · rw [State.supply_followUp, State.supply_clearCause]
    rfl
  · rw [halt]
    exact State.halt_clearCause .supply m
  · intro ended k
    refine State.leavesHalted_followUp s ?_
    rw [State.clearCause_of_last halted (same.symm.trans ended)]
    let cleared : State := { m with halt := m.halt.put .supply false, haltEnded := true }
    exact State.leavesHalted_of_same (s := cleared) rfl rfl (State.leavesHalted_endHalt cleared k)
  · intro goesOn
    have left : (m.clearCause .supply).halted = true := same.symm.trans goesOn
    have districts : (m.clearCause .supply).districts = s.districts := by
      rw [State.clearCause_of_halted .supply left]
      rfl
    rw [State.followUp_halted districts left]
    exact districts

end Sys2Proof.Machine

open Sys2Proof Sys2Proof.Machine

/-- Settles O6: the reading is recorded beside those of other straps and rounds. -/
theorem strapReadingRecorded : Obligations.StrapReadingRecorded := by
  intro s strap round code
  refine ⟨?_, ?_⟩
  · intro mode few
    refine ⟨_, exec_strapReading strap round code s, ?_⟩
    rw [State.strapReading_before_last mode few]
    exact ⟨mem_recordReading _ _, fun x hx other => mem_recordReading_of_other hx other, rfl⟩
  · intro mode
    rw [exec_strapReading, State.strapReading_outside_straps strap round code mode]

/-- Settles O16: the counters after a sample are those of its class, whichever way the flag goes. -/
theorem supplyCounters : Obligations.SupplyCounters := by
  intro s v mode
  refine ⟨_, exec_supplySample v s, ?_⟩
  obtain ⟨flag, monitor⟩ := State.supply_supplySample (v := v) mode
  rw [monitor]
  refine ⟨?_, ?_, ?_⟩
  · intro low
    rw [SupplyMonitor.counted_low _ low]
    exact ⟨rfl, rfl⟩
  · intro low high
    rw [SupplyMonitor.counted_band _ low high]
    exact ⟨rfl, rfl⟩
  · intro high
    rw [SupplyMonitor.counted_high _ high]
    exact ⟨rfl, rfl⟩

/-- Settles O17: by the three ways of a supply sample, with the beginning and the end of a halt. -/
theorem supplyLostAndRestored : Obligations.SupplyLostAndRestored := by
  intro s v mode ok lowRun highRun
  refine ⟨_, exec_supplySample v s, ?_, ?_, ?_⟩
  · intro low third present
    have full := SupplyMonitor.counted_lowRun_full.mpr ⟨low, third.ge⟩
    exact State.supplySample_low_halts mode full present
  · intro high last absent
    have full := SupplyMonitor.counted_highRun_full.mpr ⟨high, last.ge⟩
    exact State.supplySample_high_restores mode ok full absent
  · intro notLost notRestored
    have kept : ¬ ((s.supply.counted v).lowRun = Config.NLOW ∧ s.supply.present = true) := by
      rintro ⟨full, present⟩
      obtain ⟨low, third⟩ := SupplyMonitor.counted_lowRun_full.mp full
      have below := lowRun.resolve_right (by simp [present])
      exact notLost ⟨low, by omega, present⟩
    have keptOut : ¬ ((s.supply.counted v).highRun = Config.NHIGH ∧ s.supply.present = false) := by
      rintro ⟨full, absent⟩
      obtain ⟨high, last⟩ := SupplyMonitor.counted_highRun_full.mp full
      have below := highRun.resolve_right (by simp [absent])
      exact notRestored ⟨high, by omega, absent⟩
    rw [State.supplySample_counted mode kept keptOut]
    exact ⟨rfl, SupplyMonitor.present_counted _ v⟩

end

section
/-! PROOFS. The local inputs (01 1.6): RESUME/ and RELEASE/ that deliver nothing, the CNFk levels that are no fault, and
STOP/ (R110, R172, R173). -/

namespace Sys2Proof.Machine

/-! ### Raw changes and deliveries -/

theorem Qualifier.rawChange_of_ne {level : Level} {q : Qualifier} (h : level ≠ q.raw) :
    q.rawChange level = { settled := q.settled, raw := level,
                          held := if q.settled = some level then none else some 0 } := if_neg h

theorem State.debounceExpiry_held {pin : InputPin} {s : State} (h : (s.qualifier pin).held.isSome = true) :
    s.debounceExpiry pin =
      State.followUp s ((s.setQualifier pin (s.qualifier pin).expired).deliver pin (s.qualifier pin).settled
        (s.qualifier pin).raw) := if_pos h

/-- A delivery that moves nothing the ramp list unit reads is the whole of the step. -/
theorem State.debounceExpiry_unmoved {pin : InputPin} {s u : State} (h : (s.qualifier pin).held.isSome = true)
    (owed : s.NoStartOwed)
    (delivered : (s.setQualifier pin (s.qualifier pin).expired).deliver pin (s.qualifier pin).settled
      (s.qualifier pin).raw = u) (unmoved : s.Unmoved u) : s.debounceExpiry pin = u := by
  rw [State.debounceExpiry_held h, delivered]
  exact State.followUp_unmoved unmoved owed

/-- RESUME/ and RELEASE/ deliver an event at a change from high to low alone (R14). -/
theorem State.deliver_noEvent {pin : InputPin} (panel : pin = .resume ∨ pin = .release) {before : Option Level}
    {level : Level} (h : ¬ (before = some .high ∧ level = .low)) (s : State) :
    s.deliver pin before level = s := by
  rcases panel with rfl | rfl <;> exact if_neg h

/-! ### Relay levels -/

theorem State.cnfDelivered_nonReversing {k : District} {s : State} (h : (s.record k).reversing = false)
    (level : Level) : s.cnfDelivered k level = s := if_neg (by simp [h])

/-- The first level of a relay that is not driven is adopted (R70). -/
theorem State.cnfDelivered_undriven {k : District} {s : State} (h : (s.record k).reversing = true)
    (undriven : (s.relay k).pol = none) (level : Level) :
    s.cnfDelivered k level = s.setRelay k { s.relay k with cnf := some level, pol := some level } := by
  unfold State.cnfDelivered
  rw [if_pos h]
  simp [undriven]

/-- A level of a driven relay is read and judged (R79, R85). -/
theorem State.cnfDelivered_driven {k : District} {s : State} (h : (s.record k).reversing = true)
    (driven : (s.relay k).pol ≠ none) (level : Level) :
    s.cnfDelivered k level = (s.setRelay k { s.relay k with cnf := some level }).judgeReading k := by
  unfold State.cnfDelivered
  rw [if_pos h]
  simp [driven]

/-- A reading equal to POLk outside a changeover is no fault (R85). -/
theorem State.judgeReading_agrees {k : District} {s : State} (agrees : (s.relay k).cnf = (s.relay k).pol)
    (notSwitching : (s.record k).state ≠ .switching)
    (notPending : ¬ ((s.record k).state = .halted ∧ (s.record k).confirmPending = true)) :
    s.judgeReading k = s := by
  have standing : s.relayDisagrees k = false := by
    unfold State.relayDisagrees
    rw [agrees]
    cases (s.relay k).pol <;> simp
  have notPending' : (s.record k).pendingInHalt = false := by
    unfold DistrictRecord.pendingInHalt
    simpa using notPending
  unfold State.judgeReading
  dsimp only
  rw [if_neg notSwitching, notPending', standing]
  rfl

/-- A reading that differs from POLk is no confirm in SWITCHING, and no fault there (R79, R85). -/
theorem State.judgeReading_unconfirmed {k : District} {s : State} (differs : (s.relay k).cnf ≠ (s.relay k).pol)
    (switching : (s.record k).state = .switching) : s.judgeReading k = s := by
  unfold State.judgeReading
  dsimp only
  rw [if_pos switching]
  exact if_neg (by simpa using differs)

theorem Level.ne_invert (l : Level) : l ≠ l.invert := by
  cases l <;> decide

/-! ### The release of STOP/ -/

theorem State.releaseDriver_tx_rx (s : State) :
    s.releaseDriver.line.tx = s.line.tx ∧ s.releaseDriver.line.rx = s.line.rx := by
  unfold State.releaseDriver
  rcases State.freed_cases (s.modLine (fun l => { l.notIdle with driver := .off })) with ⟨_, h⟩ | ⟨_, h⟩ <;>
    rw [h] <;> exact ⟨rfl, rfl⟩

theorem State.sameOutsideLine_stopReleased (s : State) : State.sameOutsideLine s s.stopReleased := by
  unfold State.stopReleased
  split
  · exact State.sameOutsideLine_releaseDriver s
  · rfl

/-- STOP/ at high: past tBDRIVE the driver releases the pin, and before it goes on (R94, R110; log entry 34). -/
theorem State.line_stopReleased (s : State) :
    (s.line.driver = .held → s.stopReleased.line.driver = .off ∧ s.stopReleased.line.idle = 0 ∧
      s.stopReleased.line.breakInProgress = s.line.breakInProgress ∧ s.stopReleased.line.tx = s.line.tx ∧
      s.stopReleased.line.rx = s.line.rx) ∧
    (s.line.driver ≠ .held → s.stopReleased.line = s.line) := by
  refine ⟨fun driving => ?_, fun driving => ?_⟩
  · have released : s.stopReleased = s.releaseDriver := if_pos driving
    obtain ⟨driver, idle, inProgress⟩ := State.releaseDriver_line s
    obtain ⟨tx, rx⟩ := State.releaseDriver_tx_rx s
    rw [released]
    exact ⟨driver, idle, inProgress, tx, rx⟩
  · have goesOn : s.stopReleased = s := if_neg driving
    rw [goesOn]

/-! ### An entry that waits through the beginning of a halt -/

/-- The entry waits in a queue of at most n entries, all of which wait. -/
structure State.WaitsAmong (e : Entry) (n : Nat) (s : State) : Prop where
  mem : e ∈ s.queue
  waiting : ∀ x ∈ s.queue, x.phase = .waiting
  length : s.queue.length ≤ n

theorem State.WaitsAmong.of_queue {e : Entry} {n : Nat} {s : State} {q : List Entry} (queue : s.queue = q)
    (mem : e ∈ q) (waiting : ∀ x ∈ q, x.phase = .waiting) (length : q.length ≤ n) : s.WaitsAmong e n := by
  subst queue
  exact ⟨mem, waiting, length⟩

theorem State.WaitsAmong.withdraw {e : Entry} {n : Nat} {s : State} (h : s.WaitsAmong e n) {kind : Kind}
    {k : District} (spared : ¬ (e.frame.kind = kind ∧ e.frame.loc.district = k)) :
    (s.withdraw kind k).WaitsAmong e n := by
  refine ⟨State.withdraw_keeps h.mem spared, fun x hx => ?_,
    (List.length_filterMap_le _ _).trans h.length⟩
  obtain ⟨y, hy, left⟩ := List.mem_filterMap.mp hx
  unfold Entry.withdrawnFor at left
  rw [h.waiting y hy] at left
  split at left
  · cases left
  · cases left
    exact h.waiting _ hy

/-- A posting to a queue with room spares an entry that it does not replace by another frame (R132). -/
theorem State.WaitsAmong.post {e : Entry} {n : Nat} {s : State} (h : s.WaitsAmong e n)
    (room : n < Config.NQUEUE) {p : Post} (spared : p.matchedBy e → e.frame = p) :
    (s.post p).WaitsAmong e (n + 1) := by
  by_cases run : s.mode = .run
  · have queue : (s.post p).queue = (postInto p s.queue).queue := by
      rw [State.queue_post, State.queueWith, if_pos run]
    have notFull : s.queue.length < Config.NQUEUE := Nat.lt_of_le_of_lt h.length room
    unfold postInto at queue
    cases found : s.queue.find? (fun x => p.replaces x.frame) with
    | some old =>
      rw [found] at queue
      have new : old.replacedBy p = p.waiting := by
        unfold Entry.replacedBy
        rw [h.waiting old (List.mem_of_find?_eq_some found)]
        rfl
      dsimp only at queue
      rw [new] at queue
      refine .of_queue queue ?_ (fun x hx => ?_) ?_
      · rw [mem_insertByRank, List.mem_filter]
        by_cases hit : p.replaces e.frame = true
        · left
          have frame := spared ((Post.replaces_iff p e).mp hit)
          have phase := h.waiting e h.mem
          cases e
          cases frame
          cases phase
          rfl
        · exact Or.inr ⟨h.mem, by simp [hit]⟩
      · rcases (mem_insertByRank _ _ _).mp hx with rfl | hx
        · rfl
        · exact h.waiting x (List.mem_of_mem_filter hx)
      · rw [length_insertByRank]
        exact Nat.succ_le_succ ((List.length_filter_le _ _).trans h.length)
    | none =>
      rw [found] at queue
      dsimp only at queue
      rw [if_pos notFull] at queue
      refine .of_queue queue ?_ (fun x hx => ?_) ?_
      · exact (mem_insertByRank _ _ _).mpr (Or.inr h.mem)
      · rcases (mem_insertByRank _ _ _).mp hx with rfl | hx
        · rfl
        · exact h.waiting x hx
      · rw [length_insertByRank]
        exact Nat.succ_le_succ h.length
  · rw [State.post_outside_run p run]
    exact ⟨h.mem, h.waiting, h.length.trans (Nat.le_succ n)⟩

/-- The halt of district k neither withdraws the entry nor posts another frame in its place (R57, R132, R137). -/
structure State.HaltSpares (s : State) (k : District) (e : Entry) : Prop where
  fi : e.frame.kind = .fi → e.frame.loc.district = k → (s.record k).state ≠ .contend
  rb : e.frame.kind = .rb → e.frame.loc.district = k → (s.record k).state ≠ .queued
  re : e.frame.kind = .re → e.frame.loc = s.whereOf k → e.frame = s.rePost k

theorem State.rePost_congr {s t : State} (config : t.config = s.config) (k : District) :
    t.rePost k = s.rePost k := by
  unfold State.rePost State.whereOf
  rw [State.group_congr config]

theorem State.HaltSpares.of_same {s u : State} {k : District} {e : Entry} (h : s.HaltSpares k e)
    (record : u.record k = s.record k) (config : u.config = s.config) : u.HaltSpares k e := by
  refine ⟨by rw [record]; exact h.fi, by rw [record]; exact h.rb, fun kind loc => ?_⟩
  rw [State.rePost_congr config]
  exact h.re kind (loc.trans (congrArg Post.loc (State.rePost_congr config k)))

theorem State.WaitsAmong.depart {e : Entry} {n : Nat} {s : State} (h : s.WaitsAmong e n) {k : District}
    (spared : s.HaltSpares k e) : (s.depart k).WaitsAmong e n := by
  unfold State.depart
  cases hs : (s.record k).state
  case queued =>
    have left := h.withdraw (kind := .rb) (k := k) (fun ⟨kind, district⟩ => spared.rb kind district hs)
    exact ⟨left.mem, left.waiting, left.length⟩
  case contend => exact h.withdraw (fun ⟨kind, district⟩ => spared.fi kind district hs)
  all_goals exact ⟨h.mem, h.waiting, h.length⟩

theorem State.WaitsAmong.enterHalted {e : Entry} {n : Nat} {s : State} (h : s.WaitsAmong e n)
    (room : n < Config.NQUEUE) {k : District} (spared : s.HaltSpares k e) :
    (s.enterHalted k).WaitsAmong e (n + 1) := by
  have departed := h.depart spared
  have moved : (s.moveOff k DistrictRecord.toHalted).WaitsAmong e n :=
    ⟨departed.mem, departed.waiting, departed.length⟩
  have more {t : State} (ht : t.WaitsAmong e n) : t.WaitsAmong e (n + 1) :=
    ⟨ht.mem, ht.waiting, ht.length.trans (Nat.le_succ n)⟩
  rcases State.enterHalted_cases k s with ⟨_, he⟩ | ⟨_, _, he⟩ | ⟨_, he⟩ <;> rw [he]
  · exact more h
  · exact more moved
  · have config := State.config_of_sameOutside (State.onlyDistrict_moveOff k DistrictRecord.toHalted s).2
    refine moved.post room fun ⟨kind, loc⟩ => ?_
    rw [State.rePost_congr config] at loc ⊢
    exact spared.re kind (loc.resolve_right (by simp [State.rePost]))

/-- A queue with room for the REs of four cut ramps keeps a waiting entry that the halt spares. -/
theorem State.WaitsAmong.beginHalt {e : Entry} {s : State} (h : s.WaitsAmong e 4)
    (spared : ∀ k : District, s.HaltSpares k e) : s.beginHalt.WaitsAmong e 8 := by
  refine State.eachDistrict_induction (P := fun n u => u.WaitsAmong e (4 + n)) State.onlyDistrict_enterHalted
    s h ?_
  intro k u record _ same waits
  have room : 4 + k.val < Config.NQUEUE := Nat.add_lt_add_left k.isLt 4
  exact waits.enterHalted room ((spared k).of_same record (State.config_of_sameOutside same))

/-! ### The break driver starts -/

theorem State.startBreakDriver_unmoved (s : State) : s.Unmoved s.startBreakDriver := by
  rw [State.startBreakDriver_frame]
  exact ⟨rfl, rfl, rfl, rfl, rfl⟩

theorem State.relays_startBreakDriver (s : State) : s.startBreakDriver.relays = s.relays := by
  rw [State.startBreakDriver_frame]

theorem State.halted_startBreakDriver (s : State) : s.startBreakDriver.halted = s.halted :=
  State.halted_congr (State.startBreakDriver_unmoved s).halt

theorem State.dropLastCharacter_line_tx (s : State) : s.dropLastCharacter.line.tx = s.line.tx := by
  unfold State.dropLastCharacter
  split <;> rfl

/-- The frame in flight is abandoned: its attempt ends without completion (R110, R136). -/
theorem State.queue_startBreakDriver {s : State} (sending : s.line.tx.isSome = true) :
    s.startBreakDriver.queue = (s.settleAttempt false).queue := by
  have queue : s.dropLastCharacter.queue = s.queue := by
    unfold State.dropLastCharacter
    split <;> rfl
  have ended : s.dropLastCharacter.endAttempt =
      (s.dropLastCharacter.settleAttempt false).modLine (fun l => { l with tx := none }) :=
    if_pos (by rw [State.dropLastCharacter_line_tx]; exact sending)
  show s.dropLastCharacter.endAttempt.queue = _
  rw [ended]
  show s.dropLastCharacter.queue.filterMap (Entry.settled false) = _
  rw [queue]
  rfl

/-- A frame abandoned in its last character is not heard (R111; log entry 32). -/
theorem State.startBreakDriver_lastCharacter {s : State} {x : Sending} (sending : s.line.tx = some x)
    (last : 3 ≤ x.char) :
    s.startBreakDriver.line.rx.handing = none ∧ s.startBreakDriver.handler = { held := [], hunt := true } := by
  have lastCharacter : s.sendsLastCharacter = true := by
    unfold State.sendsLastCharacter
    rw [sending]
    exact decide_eq_true last
  have dropped : s.dropLastCharacter = (s.modRx (fun r => { r with handing := none })).discardAssembly :=
    if_pos lastCharacter
  have kept (u : State) : u.endAttempt.line.rx = u.line.rx ∧ u.endAttempt.handler = u.handler := by
    unfold State.endAttempt
    split <;> exact ⟨rfl, rfl⟩
  obtain ⟨rx, handler⟩ := kept s.dropLastCharacter
  constructor
  · show s.dropLastCharacter.endAttempt.line.rx.handing = none
    rw [rx, dropped]
    rfl
  · show s.dropLastCharacter.endAttempt.handler = _
    rw [handler, dropped]
    rfl

/-- The entry of an abandoned frame waits again, beside the others (R111, R136). -/
theorem State.waitsAmong_startBreakDriver {s : State} (sending : s.line.tx.isSome = true) {e : Entry}
    (he : e ∈ s.queue) (phase : e.phase = .onLine .none) :
    s.startBreakDriver.WaitsAmong { e with phase := .waiting } s.queue.length := by
  refine .of_queue (State.queue_startBreakDriver sending) ?_ (fun x hx => ?_) ?_
  · refine List.mem_filterMap.mpr ⟨e, he, ?_⟩
    unfold Entry.settled
    rw [phase]
    rfl
  · exact State.settleAttempt_waiting hx
  · exact List.length_filterMap_le _ _

/-! ### STOP/ asserted -/

/-- The setting of LINE_STOP withdraws a pending RS, and spares every other entry (R172). -/
theorem State.WaitsAmong.lineStopSet {e : Entry} {n : Nat} {s : State} (h : s.WaitsAmong e n)
    (notRs : e.frame.kind ≠ .rs) : (s.causeSet .lineStop).WaitsAmong e n := by
  have marked : ({ s with halt := s.halt.put .lineStop true }.emptyRampList).WaitsAmong e n :=
    ⟨h.mem, h.waiting, h.length⟩
  exact marked.withdraw (fun hit => notRs hit.1)

theorem State.record_causeSet (c : HaltCause) (s : State) (k : District) :
    (s.causeSet c).record k = s.record k := by
  rw [State.causeSet_frame]
  rfl

/-- After LINE_STOP is set the ramp list is empty and the rest of the unit's timers stand (R150, R172). -/
theorem State.ramp_setLineStop (s : State) :
    (s.setCause .lineStop).ramp.list = [] ∧ (s.setCause .lineStop).ramp.floor = s.ramp.floor ∧
      (s.setCause .lineStop).ramp.holdoff = s.ramp.holdoff ∧
      (s.setCause .lineStop).ramp.intentAge = s.ramp.intentAge := by
  cases h : s.halted
  · rw [State.setCause_of_running .lineStop h]
    have cut := State.ownCut_beginHalt (s.causeSet .lineStop)
    refine ⟨List.eq_nil_iff_forall_not_mem.mpr fun e he => ?_, cut.floor, cut.holdoff, cut.intentAge⟩
    exact List.not_mem_nil (cut.sub e he)
  · rw [State.setCause_of_halted .lineStop h]
    exact ⟨rfl, rfl, rfl, rfl⟩

/-- After LINE_STOP is set no RS waits (R172). -/
theorem State.noRsWaits_setLineStop (s : State) :
    ∀ e ∈ (s.setCause .lineStop).queue,
      ¬ (e.frame.kind = .rs ∧ e.frame.loc.district = 0 ∧ e.phase = .waiting) := by
  have withdrawn : ∀ e ∈ (s.causeSet .lineStop).queue,
      ¬ (e.frame.kind = .rs ∧ e.frame.loc.district = 0 ∧ e.phase = .waiting) := by
    rintro e he ⟨kind, district, waits⟩
    have gone := State.withdraw_gone (s := { s with halt := s.halt.put .lineStop true }.emptyRampList) he kind
      district
    rw [waits] at gone
    cases gone
  cases h : s.halted
  · rw [State.setCause_of_running .lineStop h]
    refine State.queue_beginHalt_keeps withdrawn ?_ ?_
    · rintro x gone ⟨_, _, waits⟩
      rw [waits] at gone
      cases gone
    · rintro x re ⟨rs, _⟩
      rw [re] at rs
      cases rs
  · rw [State.setCause_of_halted .lineStop h]
    exact withdrawn

theorem State.alert_setCause (c : HaltCause) (s : State) : (s.setCause c).alert = s.alert := by
  cases h : s.halted
  · rw [State.setCause_of_running c h, State.alert_beginHalt, State.causeSet_frame]
  · rw [State.setCause_of_halted c h, State.causeSet_frame]

/-- An abandoned frame stays pending when STOP/ is asserted on a halted station (R111, R172). -/
theorem State.abandoned_stays_halted {s : State} (halted : s.halted = true) (sending : s.line.tx.isSome = true)
    {e : Entry} (he : e ∈ s.queue) (phase : e.phase = .onLine .none) (notRs : e.frame.kind ≠ .rs) :
    { e with phase := .waiting } ∈ s.stopAssertedNow.queue := by
  have still := (State.halted_startBreakDriver s).trans halted
  unfold State.stopAssertedNow
  rw [State.setCause_of_halted .lineStop still]
  exact ((State.waitsAmong_startBreakDriver sending he phase).lineStopSet notRs).mem

/-- An abandoned frame stays pending when STOP/ halts the station, in a queue with room for the REs of cut ramps,
where the halt spares it (R57, R111, R132, R137). -/
theorem State.abandoned_stays_running {s : State} (running : s.halted = false)
    (sending : s.line.tx.isSome = true) (room : s.queue.length ≤ 4) {e : Entry} (he : e ∈ s.queue)
    (phase : e.phase = .onLine .none) (notRs : e.frame.kind ≠ .rs)
    (spared : ∀ k : District, s.HaltSpares k { e with phase := .waiting }) :
    { e with phase := .waiting } ∈ s.stopAssertedNow.queue := by
  have unmoved := State.startBreakDriver_unmoved s
  have still := (State.halted_startBreakDriver s).trans running
  have waits := State.waitsAmong_startBreakDriver sending he phase
  have few : s.startBreakDriver.WaitsAmong { e with phase := .waiting } 4 :=
    ⟨waits.mem, waits.waiting, waits.length.trans room⟩
  have spared' (k : District) :
      (s.startBreakDriver.causeSet .lineStop).HaltSpares k { e with phase := .waiting } := by
    refine (spared k).of_same ?_ ?_
    · rw [State.record_causeSet]
      exact congrArg (fun q => PerDistrict.get q k) unmoved.districts
    · rw [State.causeSet_frame]
      exact unmoved.config
  unfold State.stopAssertedNow
  rw [State.setCause_of_running .lineStop still]
  exact ((few.lineStopSet notRs).beginHalt spared').mem

/-- The frames that the statement on STOP/ names are spared by the halt of every district. -/
theorem State.haltSpares_of_frame {s : State} {e : Entry}
    (fi : e.frame.kind = .fi → (s.record e.frame.loc.district).state ≠ .contend)
    (rb : e.frame.kind = .rb → (s.record e.frame.loc.district).state ≠ .queued)
    (re : e.frame.kind = .re → e.frame = s.frameFor .re e.frame.loc.district 0) (k : District) :
    s.HaltSpares k e := by
  refine ⟨fun kind district => ?_, fun kind district => ?_, fun kind loc => ?_⟩
  · rw [← district]
    exact fi kind
  · rw [← district]
    exact rb kind
  · have district : e.frame.loc.district = k := congrArg Where.district loc
    rw [district] at re
    exact re kind

/-- What STOP/ at low moves, and what it leaves: beside the queue, the districts and the ramp list unit only the
causes, the line interface and the assembly. -/
theorem State.stopAssertedNow_frame (s : State) :
    s.stopAssertedNow.line = s.startBreakDriver.line ∧ s.stopAssertedNow.handler = s.startBreakDriver.handler ∧
      s.stopAssertedNow.stopQ = s.stopQ ∧ s.stopAssertedNow.mode = s.mode ∧ s.stopAssertedNow.alert = s.alert ∧
      s.stopAssertedNow.halt = { s.halt with lineStop := true } := by
  have alert := State.alert_setCause .lineStop s.startBreakDriver
  unfold State.stopAssertedNow
  rw [alert, State.setCause_frame]
  dsimp only
  rw [State.startBreakDriver_frame]
  exact ⟨rfl, rfl, rfl, rfl, rfl, rfl⟩

/-- What follows STOP/ at low moves at most the chosen district (R155). -/
theorem State.followUp_stopAssertedNow {s m : State} (districts : m.districts = s.districts) :
    ∃ chosen : Option District, State.followUp s m.stopAssertedNow =
      { m.stopAssertedNow with ramp := { m.stopAssertedNow.ramp with chosen := chosen } } :=
  ⟨_, State.followUp_setCause ((State.startBreakDriver_unmoved m).districts.trans districts) .lineStop⟩

/-- STOP/ at low halts every district of a station that was not halted (R173). -/
theorem State.haltsDistrict_stopAssertedNow {s m : State} (districts : m.districts = s.districts)
    (relays : m.relays = s.relays) (running : m.halted = false) (k : District) :
    s.haltsDistrict (State.followUp s m.stopAssertedNow) k :=
  State.haltsDistrict_followUp_setCause k ((State.startBreakDriver_unmoved m).districts.trans districts)
    ((State.relays_startBreakDriver m).trans relays) .lineStop
    ((State.halted_startBreakDriver m).trans running)

/-- STOP/ at low moves no district of a station that was halted (R165). -/
theorem State.districts_stopAssertedNow {s : State} (halted : s.halted = true) :
    s.stopAssertedNow.districts = s.districts := by
  unfold State.stopAssertedNow
  rw [State.setCause_of_halted .lineStop ((State.halted_startBreakDriver s).trans halted),
    State.causeSet_frame]
  exact (State.startBreakDriver_unmoved s).districts

/-- STOP/ at low empties the ramp list and leaves the unit's timers (R150, R172). -/
theorem State.ramp_stopAssertedNow (s : State) :
    s.stopAssertedNow.ramp.list = [] ∧ s.stopAssertedNow.ramp.floor = s.ramp.floor ∧
      s.stopAssertedNow.ramp.holdoff = s.ramp.holdoff ∧
      s.stopAssertedNow.ramp.intentAge = s.ramp.intentAge := by
  rw [← (State.startBreakDriver_unmoved s).ramp]
  exact State.ramp_setLineStop s.startBreakDriver

end Sys2Proof.Machine

open Sys2Proof Sys2Proof.Machine

/-- Settles O18: a raw change by R11 and R12, and a delivery of RESUME/ or RELEASE/ that is no event. -/
theorem qualifierTimed : Obligations.QualifierTimed := by
  intro s pin level
  refine ⟨?_, ?_⟩
  · intro change
    refine ⟨_, exec_rawInputChange pin level s, ?_⟩
    dsimp only
    rw [State.qualifier_setQualifier_self]
    exact ⟨Qualifier.rawChange_of_ne change, rfl⟩
  · intro panel held owed noEvent
    rw [exec_debounceExpiry,
      State.debounceExpiry_unmoved held owed (State.deliver_noEvent panel noEvent _)
        (State.unmoved_setQualifier s pin _)]
    rfl

/-- Settles O22: by the four ways in which a debounced CNFk level is no fault. -/
theorem relayLevelAdopted : Obligations.RelayLevelAdopted := by
  intro s k held owed level settled
  have quiet : s.Unmoved settled := State.unmoved_setQualifier s _ _
  have record : settled.record k = s.record k := State.record_setQualifier s _ _ k
  have relay : settled.relay k = s.relay k := State.relay_setQualifier s _ _ k
  have steps {u : State} (delivered : settled.cnfDelivered k level = u) (unmoved : settled.Unmoved u) :
      exec (.debounceExpiry (.cnf k)) s = .next u := by
    rw [exec_debounceExpiry, State.debounceExpiry_unmoved held owed delivered (quiet.trans unmoved)]
  refine ⟨?_, ?_, ?_, ?_⟩
  · intro nonReversing
    exact steps (State.cnfDelivered_nonReversing (by rw [record]; exact nonReversing) level)
      ⟨rfl, rfl, rfl, rfl, rfl⟩
  · intro reversing undriven
    refine steps ?_ (State.unmoved_setRelay settled k _)
    rw [State.cnfDelivered_undriven (by rw [record]; exact reversing) (by rw [relay]; exact undriven), relay]
  · intro reversing driven notSwitching notPending
    refine steps ?_ (State.unmoved_setRelay settled k _)
    rw [State.cnfDelivered_driven (by rw [record]; exact reversing) (by rw [relay, driven]; simp), relay]
    refine State.judgeReading_agrees ?_ ?_ ?_
    · rw [State.relay_setRelay_self]
      exact driven.symm
    · rw [State.record_setRelay, record]
      exact notSwitching
    · rw [State.record_setRelay, record]
      exact notPending
  · intro reversing driven switching
    refine steps ?_ (State.unmoved_setRelay settled k _)
    rw [State.cnfDelivered_driven (by rw [record]; exact reversing) (by rw [relay, driven]; simp), relay]
    refine State.judgeReading_unconfirmed ?_ ?_
    · rw [State.relay_setRelay_self]
      dsimp only
      rw [driven]
      exact fun same => Level.ne_invert level (Option.some.inj same)
    · rw [State.record_setRelay, record]
      exact switching

/-- Settles O19: at high the driver is released or goes on; at low the break driver starts, LINE_STOP is set and the
halt begins. -/
theorem stopPressHalts : Obligations.StopPressHalts := by
  intro s held
  refine ⟨?_, ?_⟩
  · intro high owed
    let settled : State := s.setQualifier .stop (s.qualifier .stop).expired
    have delivered : settled.deliver .stop (s.qualifier .stop).settled (s.qualifier .stop).raw =
        settled.stopReleased := by
      rw [high]
      rfl
    have frame := State.sameOutsideLine_stopReleased settled
    have unmoved : s.Unmoved settled.stopReleased :=
      (State.unmoved_setQualifier s .stop _).trans (State.unmoved_of_sameOutsideLine frame)
    refine ⟨_, exec_debounceExpiry .stop s, ?_⟩
    rw [State.debounceExpiry_unmoved held owed delivered unmoved]
    obtain ⟨released, goesOn⟩ := State.line_stopReleased settled
    refine ⟨released, goesOn, ?_⟩
    rw [← high]
    exact frame
  · intro low
    let settled : State := s.setQualifier .stop (s.qualifier .stop).expired
    have delivered : settled.deliver .stop (s.qualifier .stop).settled (s.qualifier .stop).raw =
        settled.stopAssertedNow := by
      rw [low]
      rfl
    have halts (running : s.halted = false) (k : District) :
        s.haltsDistrict (State.followUp s settled.stopAssertedNow) k :=
      State.haltsDistrict_stopAssertedNow (m := settled) rfl rfl running k
    obtain ⟨chosen, follow⟩ := State.followUp_stopAssertedNow (s := s) (m := settled) rfl
    obtain ⟨line, handler, stopQ, mode, alert, halt⟩ := State.stopAssertedNow_frame settled
    obtain ⟨driver, inProgress, txIdle⟩ := State.startBreakDriver_line settled
    obtain ⟨list, floor, holdoff, intentAge⟩ := State.ramp_stopAssertedNow settled
    refine ⟨_, exec_debounceExpiry .stop s, ?_⟩
    rw [State.debounceExpiry_held held, delivered]
    rw [follow] at halts ⊢
    dsimp only
    rw [line, handler]
    refine ⟨?_, halt, list, floor, holdoff, intentAge, driver, inProgress, txIdle, ?_, ?_, ?_, ?_, ?_, ?_,
      alert, mode⟩
    · show (settled.stopAssertedNow.stopQ.settled == some .low) = true
      rw [stopQ, beq_iff_eq]
      exact congrArg some low
    · exact fun x sending last => State.startBreakDriver_lastCharacter (s := settled) sending last
    · exact fun halted sending e he notRs phase =>
        State.abandoned_stays_halted (s := settled) halted sending he phase notRs
    · intro running sending room e he notRs fi rb re phase
      exact State.abandoned_stays_running (s := settled) running sending room he phase notRs
        (State.haltSpares_of_frame fi rb re)
    · exact State.noRsWaits_setLineStop settled.startBreakDriver
    · exact fun running k => State.haltsDistrict_keeps (halts running k)
    · exact fun halted => State.districts_stopAssertedNow (s := settled) halted

end

section
/-! PROOFS. The gate and the trip engine (R20, R24, R36): every operation of the part leaves the engine of a
district whose gate is off cleared. -/

namespace Sys2Proof.Machine

/-! ### What gates and engines rest on -/

/-- Gates and engines are read of the districts and their engines alone. -/
theorem State.gateOk_congr {s t : State} (h : s.GateOk) (districts : t.districts = s.districts := by rfl)
    (engines : t.engines = s.engines := by rfl) : t.GateOk := by
  intro k off
  have record : t.record k = s.record k := congrArg (fun q => PerDistrict.get q k) districts
  have engine : t.engine k = s.engine k := congrArg (fun q => PerDistrict.get q k) engines
  rw [engine]
  refine h k ?_
  rw [State.gate, ← record]
  exact off

/-- An operation of one district need only see to that district. -/
theorem State.gateOk_of_onlyDistrict {k : District} {s t : State} (only : State.onlyDistrict k s t) (h : s.GateOk)
    (own : t.gate k = false → t.engine k = Engine.cleared) : t.GateOk := by
  intro j off
  by_cases same : j = k
  · subst same
    exact own off
  · obtain ⟨record, engine, _⟩ := only.1 j same
    rw [engine]
    refine h j ?_
    rw [State.gate, ← record]
    exact off

theorem State.gateOk_setRecord {k : District} {d : DistrictRecord} {s : State} (h : s.GateOk)
    (gate : d.gate = s.gate k) : (s.setRecord k d).GateOk := by
  refine State.gateOk_of_onlyDistrict (State.onlyDistrict_setRecord k d s) h fun off => ?_
  refine h k ?_
  rw [← gate, ← State.record_setRecord_self s k d]
  exact off

theorem State.gateOk_modRecord {k : District} {f : DistrictRecord → DistrictRecord} {s : State} (h : s.GateOk)
    (gate : (f (s.record k)).gate = s.gate k) : (s.modRecord k f).GateOk := State.gateOk_setRecord h gate

theorem State.gateOk_setEngine {k : District} {s : State} (e : Engine) (h : s.GateOk) (on : s.gate k = true) :
    (s.setEngine k e).GateOk :=
  State.gateOk_of_onlyDistrict (State.onlyDistrict_setEngine k e s) h
    fun off => absurd (off.symm.trans on) Bool.false_ne_true

/-- A move through gate-off clears the engine (R36). -/
theorem State.gateOk_moveOff (k : District) (f : DistrictRecord → DistrictRecord) {s : State} (h : s.GateOk) :
    (s.moveOff k f).GateOk :=
  State.gateOk_of_onlyDistrict (State.onlyDistrict_moveOff k f s) h fun _ => State.engine_moveOff k f s

theorem State.gateOk_post (p : Post) {s : State} (h : s.GateOk) : (s.post p).GateOk :=
  State.gateOk_congr h (State.districts_post p s) (State.engines_post p s)

theorem State.gateOk_modRelay (k : District) (f : Relay → Relay) {s : State} (h : s.GateOk) :
    (s.modRelay k f).GateOk := State.gateOk_congr (t := s.modRelay k f) h

/-! ### The moves of a district (03, 04) -/

theorem State.gateOk_enterLocked (k : District) {s : State} (h : s.GateOk) : (s.enterLocked k).GateOk :=
  State.gateOk_congr (State.gateOk_moveOff k DistrictRecord.toLocked h)

theorem State.gateOk_lockForRelay (k : District) {s : State} (h : s.GateOk) : (s.lockForRelay k).GateOk :=
  State.gateOk_post _ (State.gateOk_enterLocked k (State.gateOk_modRecord h rfl))

theorem State.gateOk_enterProbing (k : District) {s : State} (h : s.GateOk) : (s.enterProbing k).GateOk := by
  have moved := State.gateOk_moveOff k DistrictRecord.toProbing h
  unfold State.enterProbing
  dsimp only
  split
  · exact State.gateOk_lockForRelay k moved
  · exact moved

theorem State.gateOk_failWith (k : District) (fault : FaultKind) (n : Nat) (window : Bool) {s : State}
    (h : s.GateOk) : (s.failWith k fault n window).GateOk := by
  have marked : (s.modRecord k (fun d => { d with lastFault := fault, n := n })).GateOk :=
    State.gateOk_modRecord h rfl
  unfold State.failWith
  dsimp only
  split
  · exact State.gateOk_post _ (State.gateOk_enterLocked k marked)
  · exact State.gateOk_post _ (State.gateOk_moveOff k _ marked)

theorem State.gateOk_pardonAtTrip (k : District) {s : State} (h : s.GateOk) : (s.pardonAtTrip k).GateOk := by
  unfold State.pardonAtTrip
  split
  · exact State.gateOk_modRecord h rfl
  · exact h

theorem State.gateOk_pardonOnIntent (k : District) {s : State} (h : s.GateOk) : (s.pardonOnIntent k).GateOk := by
  unfold State.pardonOnIntent
  split
  · exact State.gateOk_modRecord h rfl
  · exact h

theorem State.gateOk_tripLive (k : District) (fault : FaultKind) {s : State} (h : s.GateOk) :
    (s.tripLive k fault).GateOk := State.gateOk_pardonAtTrip k (State.gateOk_failWith k _ _ _ h)

theorem State.gateOk_tripRamp (k : District) (fault : FaultKind) {s : State} (h : s.GateOk) :
    (s.tripRamp k fault).GateOk := State.gateOk_pardonAtTrip k (State.gateOk_failWith k _ _ _ h)

theorem State.gateOk_enterSwitching (k : District) {s : State} (h : s.GateOk) : (s.enterSwitching k).GateOk :=
  State.gateOk_modRelay k _ (State.gateOk_moveOff k _ h)

theorem State.gateOk_enterContend (k : District) (origin : Origin) {s : State} (h : s.GateOk) :
    (s.enterContend k origin).GateOk := by
  have moved := State.gateOk_moveOff k (DistrictRecord.toContend origin) h
  have cut : (if (s.record k).state = .ramping then (s.moveOff k (DistrictRecord.toContend origin)).postRe k
      else s.moveOff k (DistrictRecord.toContend origin)).GateOk := by
    split
    · exact State.gateOk_post _ moved
    · exact moved
  unfold State.enterContend
  dsimp only
  by_cases quiet : s.mode = .quiet
  · rw [if_pos quiet]
    exact State.gateOk_enterSwitching k cut
  · rw [if_neg quiet]
    exact State.gateOk_post _ cut

theorem State.gateOk_exitByOrigin (k : District) (watch : WatchKind) {s : State} (h : s.GateOk) :
    (s.exitByOrigin k watch).GateOk := by
  unfold State.exitByOrigin
  cases (s.record k).origin with
  | live => exact State.gateOk_moveOff k _ h
  | ramp => exact State.gateOk_moveOff k _ h
  | probe => exact State.gateOk_enterProbing k h

theorem State.gateOk_hearIntentInContend (k : District) {s : State} (h : s.GateOk) :
    (s.hearIntentInContend k).GateOk := by
  unfold State.hearIntentInContend
  dsimp only
  split
  · exact State.gateOk_exitByOrigin k _ (State.gateOk_modRecord h rfl)
  · exact h

theorem State.gateOk_districtHearsIntent (own : Option District) (k : District) {s : State} (h : s.GateOk) :
    (State.districtHearsIntent own k s).GateOk := by
  unfold State.districtHearsIntent
  split
  · exact State.gateOk_enterSwitching k h
  · split
    · exact State.gateOk_pardonOnIntent k h
    · exact State.gateOk_pardonOnIntent k (State.gateOk_hearIntentInContend k h)

theorem State.gateOk_leaveHalted (k : District) {s : State} (h : s.GateOk) : (s.leaveHalted k).GateOk := by
  unfold State.leaveHalted
  dsimp only
  split
  · cases (s.record k).returnClass with
    | queue => exact State.gateOk_moveOff k _ h
    | cool => exact State.gateOk_moveOff k _ h
    | probe => exact State.gateOk_enterProbing k h
    | dark => exact State.gateOk_moveOff k _ h
    | locked => exact State.gateOk_enterLocked k h
  · exact h

theorem State.gateOk_enterHalted (k : District) {s : State} (h : s.GateOk) : (s.enterHalted k).GateOk := by
  have moved := State.gateOk_moveOff k DistrictRecord.toHalted h
  rcases State.enterHalted_cases k s with ⟨_, stays⟩ | ⟨_, _, enters⟩ | ⟨_, cut⟩
  · rw [stays]
    exact h
  · rw [enters]
    exact moved
  · rw [cut]
    exact State.gateOk_post _ moved

theorem State.gateOk_settlePending (k : District) (cls : ReturnClass) {s : State} (h : s.GateOk) :
    (s.settlePending k cls).GateOk := by
  have settled : (s.modRecord k (fun d => { d with confirmPending := false, returnClass := cls })).GateOk :=
    State.gateOk_modRecord h rfl
  unfold State.settlePending
  dsimp only
  split
  · exact settled
  · exact State.gateOk_leaveHalted k settled

theorem State.gateOk_confirmSwitching (k : District) {s : State} (h : s.GateOk) :
    (s.confirmSwitching k).GateOk := by
  have counted := State.gateOk_modRelay k Relay.countFlip h
  unfold State.confirmSwitching
  dsimp only
  split
  · exact State.gateOk_moveOff k _ (State.gateOk_modRecord counted rfl)
  · split
    · exact State.gateOk_failWith k _ _ _ (State.gateOk_modRelay k _ counted)
    · exact State.gateOk_exitByOrigin k _ (State.gateOk_modRecord counted rfl)

theorem State.gateOk_confirmPendingFlip (k : District) {s : State} (h : s.GateOk) :
    (s.confirmPendingFlip k).GateOk :=
  State.gateOk_settlePending k _ (State.gateOk_modRecord (State.gateOk_modRelay k _ h) rfl)

theorem State.gateOk_confirmRunsOut (k : District) {s : State} (h : s.GateOk) : (s.confirmRunsOut k).GateOk := by
  have stopped := State.gateOk_modRelay k (fun r => { r with confirm := none }) h
  unfold State.confirmRunsOut
  dsimp only
  split
  · exact State.gateOk_lockForRelay k stopped
  · split
    · exact State.gateOk_settlePending k _
        (State.gateOk_congr (State.gateOk_modRecord (f := fun d => { d with lastFault := .relay }) stopped rfl))
    · exact h

theorem State.gateOk_relayFault (k : District) {s : State} (h : s.GateOk) : (s.relayFault k).GateOk := by
  unfold State.relayFault
  dsimp only
  cases (s.record k).state with
  | locked => exact State.gateOk_modRecord h rfl
  | halted =>
    dsimp only
    split
    · exact h
    · exact State.gateOk_modRecord h rfl
  | switching => exact h
  | live | ramping | probing | cooling | queued | contend | dark => exact State.gateOk_lockForRelay k h

theorem State.gateOk_judgeReading (k : District) {s : State} (h : s.GateOk) : (s.judgeReading k).GateOk := by
  unfold State.judgeReading
  dsimp only
  split
  · split
    · exact State.gateOk_confirmSwitching k h
    · exact h
  · split
    · split
      · exact State.gateOk_confirmPendingFlip k h
      · exact h
    · split
      · exact State.gateOk_relayFault k h
      · exact h

theorem State.gateOk_cnfDelivered (k : District) (level : Level) {s : State} (h : s.GateOk) :
    (s.cnfDelivered k level).GateOk := by
  have read := State.gateOk_modRelay k (fun r => { r with cnf := some level }) h
  unfold State.cnfDelivered
  split
  · dsimp only
    split
    · exact State.gateOk_modRelay k _ read
    · exact State.gateOk_judgeReading k read
  · exact h

theorem State.gateOk_release (k : District) {s : State} (h : s.GateOk) : (s.release k).GateOk := by
  have released : (s.modRecord k (fun d => { d with n := 0 })).GateOk := State.gateOk_modRecord h rfl
  unfold State.release
  dsimp only
  split
  · split
    · exact State.gateOk_moveOff k _ released
    · exact State.gateOk_enterProbing k released
  · split
    · exact State.gateOk_modRecord h rfl
    · exact h

theorem State.gateOk_holdSet (k : District) {s : State} (h : s.GateOk) : (s.holdSet k).GateOk := by
  have dark (f : DistrictRecord → DistrictRecord) (gate : (f (s.record k)).gate = s.gate k) :
      ((s.modRecord k f).enterDark k).GateOk := State.gateOk_moveOff k _ (State.gateOk_modRecord h gate)
  unfold State.holdSet
  dsimp only
  cases (s.record k).state with
  | halted | switching | dark => exact State.gateOk_modRecord h rfl
  | ramping => exact State.gateOk_post _ (dark _ rfl)
  | live | cooling | probing | queued | contend | locked => exact dark _ rfl

theorem State.gateOk_holdClear (k : District) {s : State} (h : s.GateOk) : (s.holdClear k).GateOk := by
  have cleared : (s.modRecord k (fun d => { d with hold := false })).GateOk := State.gateOk_modRecord h rfl
  unfold State.holdClear
  dsimp only
  split
  · split
    · exact State.gateOk_enterProbing k (State.gateOk_modRecord cleared rfl)
    · split
      · exact State.gateOk_modRecord cleared rfl
      · exact cleared
  · exact h

theorem State.gateOk_completeRamp (k : District) {s : State} (h : s.GateOk) : (s.completeRamp k).GateOk :=
  State.gateOk_of_onlyDistrict (State.onlyDistrict_completeRamp k s) h fun off => by
    have live : ((s.completeRamp k).record k).state = .live := by
      simp [State.completeRamp, State.postRe, DistrictRecord.rampComplete]
    rw [State.gate, DistrictRecord.gate, live] at off
    cases off

theorem State.gateOk_startRamp (k : District) {s : State} (h : s.GateOk) : (s.startRamp k).GateOk :=
  State.gateOk_congr (State.gateOk_moveOff k DistrictRecord.toRamping h)

/-! ### The ramp list unit and the halts (08, 09) -/

theorem State.gateOk_chooseAgain {s : State} (h : s.GateOk) : s.chooseAgain.GateOk := by
  rw [State.chooseAgain_frame]
  exact State.gateOk_congr h

theorem State.gateOk_directStart {s : State} (h : s.GateOk) : s.directStart.GateOk := by
  unfold State.directStart
  split
  · split
    · exact State.gateOk_startRamp _ h
    · exact h
  · exact h

theorem State.gateOk_followUp (before : State) {s : State} (h : s.GateOk) : (State.followUp before s).GateOk := by
  unfold State.followUp
  dsimp only
  split
  · exact State.gateOk_directStart h
  · exact State.gateOk_directStart (State.gateOk_chooseAgain h)

theorem State.gateOk_endHalt {s : State} (h : s.GateOk) : s.endHalt.GateOk :=
  State.eachDistrict_keeps (P := State.GateOk) State.onlyDistrict_leaveHalted (fun k _ => State.gateOk_leaveHalted k) h

theorem State.gateOk_beginHalt {s : State} (h : s.GateOk) : s.beginHalt.GateOk :=
  State.eachDistrict_keeps (P := State.GateOk) State.onlyDistrict_enterHalted (fun k _ => State.gateOk_enterHalted k) h

theorem State.gateOk_setCause (c : HaltCause) {s : State} (h : s.GateOk) : (s.setCause c).GateOk := by
  have marked : (s.causeSet c).GateOk := by
    rw [State.causeSet_frame]
    exact State.gateOk_congr h
  cases halted : s.halted with
  | true =>
    rw [State.setCause_of_halted c halted]
    exact marked
  | false =>
    rw [State.setCause_of_running c halted]
    exact State.gateOk_beginHalt marked

theorem State.gateOk_clearCause (c : HaltCause) {s : State} (h : s.GateOk) : (s.clearCause c).GateOk := by
  unfold State.clearCause
  dsimp only
  split
  · exact State.gateOk_endHalt (State.gateOk_congr h)
  · exact State.gateOk_congr h

theorem State.gateOk_enterQuiet {s : State} (h : s.GateOk) : s.enterQuiet.GateOk := by
  unfold State.enterQuiet
  dsimp only
  split
  · exact State.gateOk_endHalt (State.gateOk_congr h)
  · exact State.gateOk_congr h

/-! ### Samples (01, 02) -/

theorem State.gate_of_live {s : State} {k : District} (h : (s.record k).state = .live) : s.gate k = true := by
  unfold State.gate DistrictRecord.gate
  rw [h]

theorem State.gate_of_ramping {s : State} {k : District} (h : (s.record k).state = .ramping) :
    s.gate k = true := by
  unfold State.gate DistrictRecord.gate
  rw [h]

theorem State.gate_of_pulse {s : State} {k : District} (h : (s.record k).state = .probing)
    (pulse : (s.record k).phase = .pulse) : s.gate k = true := by
  unfold State.gate DistrictRecord.gate
  rw [h, pulse]
  rfl

theorem State.gateOk_detectLive (k : District) (det : Detection) {s : State} (h : s.GateOk) :
    (s.detectLive k det).GateOk := by
  unfold State.detectLive
  cases det with
  | hard =>
    dsimp only
    split
    · exact State.gateOk_enterContend k _ h
    · exact State.gateOk_tripLive k _ h
  | overload => exact State.gateOk_tripLive k _ h
  | early => exact State.gateOk_enterContend k _ h
  | inrush => exact h

theorem State.gateOk_detectRamping (k : District) (det : Detection) {s : State} (h : s.GateOk) :
    (s.detectRamping k det).GateOk := by
  unfold State.detectRamping
  cases det with
  | hard =>
    dsimp only
    split
    · exact State.gateOk_enterContend k _ h
    · exact State.gateOk_tripRamp k _ h
  | inrush => exact State.gateOk_tripRamp k _ (State.gateOk_congr (t := s.startHoldoff) h)
  | overload => exact h
  | early => exact h

theorem State.gateOk_probeVerdict (k : District) (v : Verdict) {s : State} (h : s.GateOk) :
    (s.probeVerdict k v).GateOk := by
  unfold State.probeVerdict
  cases v with
  | clear => exact State.gateOk_moveOff k _ h
  | short =>
    dsimp only
    split
    · exact State.gateOk_enterContend k _ (State.gateOk_modRecord h rfl)
    · exact State.gateOk_failWith k _ _ _ h

/-- A sample is treated with the gate on alone, and a detection that takes the gate off clears the engine. -/
theorem State.gateOk_treatSample (k : District) (l : Nat) (c : Code) {s : State} (h : s.GateOk) :
    (s.treatSample k l c).GateOk := by
  unfold State.treatSample
  cases state : (s.record k).state with
  | live =>
    have measured (e : Engine) := State.gateOk_setEngine e h (State.gate_of_live state)
    dsimp only [State.sampleLive]
    split
    · exact State.gateOk_detectLive k _ (measured _)
    · exact measured _
  | ramping =>
    have measured (e : Engine) := State.gateOk_setEngine e h (State.gate_of_ramping state)
    dsimp only [State.sampleRamping]
    split
    · exact State.gateOk_detectRamping k _ (measured _)
    · exact measured _
  | probing =>
    dsimp only
    split
    · rename_i pulse
      unfold State.sampleProbe
      split
      · exact h
      · split
        · exact State.gateOk_setEngine _ h (State.gate_of_pulse state pulse)
        · exact State.gateOk_probeVerdict k _ h
    · exact h
  | halted | dark | cooling | queued | contend | switching | locked => exact h

theorem State.gateOk_currentSample (k : District) (code : Code) {s : State} (h : s.GateOk) :
    (s.currentSample k code).GateOk := by
  have taken : ({ s with isenPins := s.isenPins.set k code, converter := s.converter.handedOn k.val } : State).GateOk :=
    State.gateOk_congr h
  unfold State.currentSample
  split
  · exact h
  · dsimp only
    split
    · exact State.gateOk_followUp s (State.gateOk_treatSample k _ code taken)
    · exact taken

theorem State.gateOk_supplySample (v : Code) {s : State} (h : s.GateOk) : (s.supplySample v).GateOk := by
  unfold State.supplySample
  split
  · exact h
  · dsimp only
    split
    · exact State.gateOk_followUp s (State.gateOk_setCause _ (State.gateOk_congr h))
    · split
      · exact State.gateOk_followUp s (State.gateOk_clearCause _ (State.gateOk_congr h))
      · exact State.gateOk_congr h

/-- The pulse of a probe puts the gate on with the fresh probe record (R32, R49). -/
theorem State.gateOk_pulseStart (k : District) {s : State} (h : s.GateOk) : (s.pulseStart k).GateOk := by
  unfold State.pulseStart
  split
  · rename_i waits
    have only := State.onlyDistrict_trans
      (State.onlyDistrict_setEngine k Engine.probing { s with converter := s.converter.scanStart })
      (State.onlyDistrict_modRecord k (fun d => { d with phase := .pulse }) _)
    refine State.gateOk_of_onlyDistrict only (State.gateOk_congr h) fun off => ?_
    have on : (({ s with converter := s.converter.scanStart }.setEngine k Engine.probing).modRecord k
        (fun d => { d with phase := .pulse })).gate k = true := by
      refine State.gate_of_pulse ?_ ?_
      · rw [State.modRecord_eq, State.record_setRecord_self]
        exact waits.1
      · rw [State.modRecord_eq, State.record_setRecord_self]
    rw [on] at off
    cases off
  · exact h

end Sys2Proof.Machine
end

section
/-! PROOFS. The invariant of the gate along every command, the clock's microsecond and the step. -/

namespace Sys2Proof.Machine

/-! ### The ends of timers, and the passing of time -/

/-- A change of every district's record that keeps the gate keeps the invariant. -/
theorem State.gateOk_mapRecords {f : DistrictRecord → DistrictRecord} (gate : ∀ d, (f d).gate = d.gate)
    {s t : State} (districts : t.districts = s.districts.map f) (engines : t.engines = s.engines)
    (h : s.GateOk) : t.GateOk := by
  intro k off
  have engine : t.engine k = s.engine k := congrArg (fun q => PerDistrict.get q k) engines
  have record : t.record k = f (s.record k) :=
    (congrArg (fun q => PerDistrict.get q k) districts).trans (PerDistrict.get_map f s.districts k)
  rw [engine]
  refine h k ?_
  rw [State.gate, ← gate, ← record]
  exact off

theorem DistrictRecord.gate_tick (d : DistrictRecord) : d.tick.gate = d.gate := by
  unfold DistrictRecord.tick
  split <;> rfl

theorem DistrictRecord.gate_advance (d : DistrictRecord) : d.advance.gate = d.gate := by
  unfold DistrictRecord.advance
  cases state : d.state <;> simp only [DistrictRecord.gate, state]

theorem State.gateOk_rampCompletes (k : District) {s : State} (h : s.GateOk) : (s.rampCompletes k).GateOk := by
  unfold State.rampCompletes
  split
  · exact State.gateOk_followUp s (State.gateOk_completeRamp k h)
  · exact h

theorem State.gateOk_rampAdvances (k : District) {s : State} (h : s.GateOk) : (s.rampAdvances k).GateOk := by
  unfold State.rampAdvances
  split
  · split
    · exact State.gateOk_modRecord h rfl
    · exact State.gateOk_rampCompletes k h
  · exact h

/-- Where a condition holds the state moves on, and else it stays. -/
theorem State.gateOk_ite {p : Prop} [Decidable p] {s t : State} (h : s.GateOk) (moved : p → t.GateOk) :
    (if p then t else s).GateOk := by
  split
  · exact moved ‹p›
  · exact h

/-! ### The peer line (05) -/

theorem State.gateOk_of_sameOutsideLine {s t : State} (same : State.sameOutsideLine s t) (h : s.GateOk) :
    t.GateOk := by
  unfold State.sameOutsideLine at same
  rw [same]
  exact State.gateOk_congr h

theorem State.gateOk_of_sameOutsideAttempt {s t : State} (same : State.sameOutsideAttempt s t) (h : s.GateOk) :
    t.GateOk := by
  unfold State.sameOutsideAttempt at same
  rw [same]
  exact State.gateOk_congr h

theorem State.gateOk_of_onlyLine {s t : State} (same : State.onlyLine s t) (h : s.GateOk) : t.GateOk := by
  unfold State.onlyLine at same
  rw [same]
  exact State.gateOk_congr h

theorem State.gateOk_modLine (f : LineInterface → LineInterface) {s : State} (h : s.GateOk) :
    (s.modLine f).GateOk := State.gateOk_congr (t := s.modLine f) h

theorem State.gateOk_showLine (level : Level) {s : State} (h : s.GateOk) : (s.showLine level).GateOk :=
  State.gateOk_of_sameOutsideLine (State.sameOutsideLine_showLine level s) h

theorem State.gateOk_attempt {s : State} (h : s.GateOk) : s.attempt.GateOk :=
  State.gateOk_of_sameOutsideAttempt (State.sameOutsideAttempt_attempt s) h

theorem State.gateOk_endAttempt {s : State} (h : s.GateOk) : s.endAttempt.GateOk :=
  State.gateOk_of_sameOutsideAttempt (State.sameOutsideAttempt_endAttempt s) h

theorem State.gateOk_characterHanded (raw : RawChar) {s : State} (h : s.GateOk) :
    (s.characterHanded raw).GateOk :=
  State.gateOk_of_sameOutsideLine (State.sameOutsideLine_characterHanded raw s) h

theorem State.gateOk_discardAssembly {s : State} (h : s.GateOk) : s.discardAssembly.GateOk :=
  State.gateOk_congr (t := s.discardAssembly) h

theorem State.gateOk_idleGap {s : State} (h : s.GateOk) : s.idleGap.GateOk := by
  have idle := State.gateOk_modLine LineInterface.idleNow (State.gateOk_showLine .high h)
  unfold State.idleGap
  split
  · exact h
  · refine State.gateOk_attempt ?_
    unfold State.gapError
    split
    · exact idle
    · exact State.gateOk_discardAssembly idle

theorem State.gateOk_idleBoundary {s : State} (h : s.GateOk) : s.idleBoundary.GateOk := by
  have counted := State.gateOk_modLine (fun l => { l with bitLeft := Config.tBIT }) h
  unfold State.idleBoundary
  dsimp only
  split
  · exact State.gateOk_attempt counted
  · exact counted

theorem State.gateOk_joinEdge (idle : Nat) {s : State} (h : s.GateOk) : (s.joinEdge idle).GateOk := by
  have shown : s.edgeShown.GateOk := State.gateOk_modLine _ (State.gateOk_showLine .low h)
  unfold State.joinEdge
  refine State.gateOk_of_sameOutsideLine (State.sameOutsideLine_edgeTaken idle _) ?_
  split
  · exact State.gateOk_attempt shown
  · exact shown

theorem State.gateOk_arbitrationLost {s : State} (h : s.GateOk) : s.arbitrationLost.GateOk := by
  have lost := State.gateOk_showLine .low (State.gateOk_endAttempt h)
  unfold State.arbitrationLost
  split
  · dsimp only
    split
    · exact lost
    · exact State.gateOk_modLine _ lost
  · exact h

theorem State.gateOk_driverFault {s : State} (h : s.GateOk) : s.driverFault.GateOk := by
  unfold State.driverFault
  split
  · exact State.gateOk_followUp s (State.gateOk_enterQuiet (State.gateOk_showLine .high (State.gateOk_endAttempt h)))
  · exact h

theorem State.gateOk_breakDetected {s : State} (h : s.GateOk) : s.breakDetected.GateOk := by
  have freed := State.gateOk_showLine .low (State.gateOk_endAttempt h)
  unfold State.breakDetected
  dsimp only
  refine State.gateOk_followUp s (State.gateOk_setCause .lineStop (State.gateOk_discardAssembly ?_))
  exact State.gateOk_of_sameOutsideLine (State.sameOutsideLine_awaitIdle _) (State.gateOk_modLine _ freed)

theorem State.gateOk_stopAssertedNow {s : State} (h : s.GateOk) : s.stopAssertedNow.GateOk := by
  have unmoved := State.startBreakDriver_frame s
  refine State.gateOk_setCause .lineStop ?_
  rw [unmoved]
  exact State.gateOk_congr h

theorem State.gateOk_driveMinimumEnd {s : State} (h : s.GateOk) : s.driveMinimumEnd.GateOk := by
  unfold State.driveMinimumEnd
  split
  · split
    · exact State.gateOk_modLine _ h
    · exact State.gateOk_of_sameOutsideLine (State.sameOutsideLine_releaseDriver s) h
  · exact h
  · exact h

/-! ### The local inputs (01 1.6) -/

theorem State.gateOk_setQualifier (pin : InputPin) (q : Qualifier) {s : State} (h : s.GateOk) :
    (s.setQualifier pin q).GateOk := by
  cases pin <;> exact State.gateOk_congr h

theorem State.gateOk_resumePressed {s : State} (h : s.GateOk) : s.resumePressed.GateOk :=
  State.gateOk_ite h fun _ => State.gateOk_post _ (State.gateOk_clearCause .lineStop h)

theorem State.gateOk_releasePressed {s : State} (h : s.GateOk) : s.releasePressed.GateOk := by
  have released : (s.eachDistrict State.release).clearAlert.GateOk := by
    have each : (s.eachDistrict State.release).GateOk :=
      State.eachDistrict_keeps (P := State.GateOk) State.onlyDistrict_release (fun k _ => State.gateOk_release k) h
    unfold State.clearAlert
    exact State.gateOk_ite each fun _ => State.gateOk_congr each
  unfold State.releasePressed
  cases s.mode with
  | straps | selfTest => exact h
  | listen | run | quiet | strapFault => exact released

theorem State.gateOk_deliver (pin : InputPin) (before : Option Level) (level : Level) {s : State}
    (h : s.GateOk) : (s.deliver pin before level).GateOk := by
  unfold State.deliver
  cases pin with
  | stop =>
    dsimp only
    split
    · exact State.gateOk_stopAssertedNow h
    · exact State.gateOk_of_sameOutsideLine (State.sameOutsideLine_stopReleased s) h
  | resume => exact State.gateOk_ite h fun _ => State.gateOk_resumePressed h
  | release => exact State.gateOk_ite h fun _ => State.gateOk_releasePressed h
  | cnf k => exact State.gateOk_cnfDelivered k level h

theorem State.gateOk_debounceExpiry (pin : InputPin) {s : State} (h : s.GateOk) :
    (s.debounceExpiry pin).GateOk :=
  State.gateOk_ite h fun _ => State.gateOk_followUp s (State.gateOk_deliver pin _ _ (State.gateOk_setQualifier pin _ h))

/-! ### Frames (06) -/

theorem State.gateOk_intentOfGroup (own : Option District) {s : State} (h : s.GateOk) :
    (s.intentOfGroup own).GateOk :=
  State.eachDistrict_keeps (P := State.GateOk) (State.onlyDistrict_districtHearsIntent own)
    (fun k _ => State.gateOk_districtHearsIntent own k) (State.gateOk_congr (t := s.heardIntent) h)

theorem State.gateOk_addressed (loc : Where) {f : District → State → State}
    (only : ∀ (k : District) (s : State), State.onlyDistrict k s (f k s))
    (keeps : ∀ (k : District) (s : State), s.GateOk → (f k s).GateOk) {s : State} (h : s.GateOk) :
    (s.addressed loc f).GateOk := by
  unfold State.addressed
  split
  · exact State.eachDistrict_keeps (P := State.GateOk) only keeps h
  · exact keeps _ s h

theorem State.gateOk_posts (posts : List Post) {s : State} (h : s.GateOk) :
    (posts.foldl (fun s p => s.post p) s).GateOk := by
  induction posts generalizing s with
  | nil => exact h
  | cons p rest ih => exact ih (State.gateOk_post p h)

theorem State.gateOk_dispatchPeer (f : Frame) {s : State} (h : s.GateOk) : (s.dispatchPeer f).GateOk := by
  unfold State.dispatchPeer
  cases f.post.kind with
  | fi => exact State.gateOk_intentOfGroup none h
  | tr =>
    dsimp only
    split <;> exact State.gateOk_congr h
  | re | rb => exact State.gateOk_congr h
  | rs => exact State.gateOk_ite h fun _ => State.gateOk_clearCause .lineStop h
  | hd =>
    dsimp only
    split
    · exact State.gateOk_addressed _ State.onlyDistrict_holdSet (fun k _ => State.gateOk_holdSet k) h
    · exact State.gateOk_addressed _ State.onlyDistrict_holdClear (fun k _ => State.gateOk_holdClear k) h
  | rl => exact State.gateOk_addressed _ State.onlyDistrict_release (fun k _ => State.gateOk_release k) h
  | sq => exact State.gateOk_posts _ h
  | st | unknown _ => exact h

theorem State.gateOk_duplicateReport {s : State} (h : s.GateOk) : s.duplicateReport.GateOk := by
  unfold State.duplicateReport
  cases s.mode with
  | run => exact State.gateOk_enterQuiet h
  | listen => exact State.gateOk_congr h
  | quiet | straps | selfTest | strapFault => exact h

theorem State.gateOk_peerFrame (f : Frame) {s : State} (h : s.GateOk) : (s.peerFrame f).GateOk := by
  have done := State.gateOk_of_onlyLine (State.onlyLine_frameComplete f.post.data s) h
  refine State.gateOk_ite h fun _ => ?_
  dsimp only
  split
  · exact done
  · exact State.gateOk_followUp s (State.gateOk_duplicateReport done)
  · exact State.gateOk_followUp s (State.gateOk_dispatchPeer f done)

theorem State.gateOk_recheck (k : District) {s : State} (h : s.GateOk) : (s.recheck k).GateOk := by
  unfold State.recheck
  dsimp only
  split
  · exact State.gateOk_startRamp k (State.gateOk_congr h)
  · exact State.gateOk_post _ (State.gateOk_congr h)

theorem State.gateOk_dispatchOwn (f : Frame) {s : State} (h : s.GateOk) : (s.dispatchOwn f).GateOk := by
  unfold State.dispatchOwn
  cases f.post.kind with
  | fi => exact State.gateOk_intentOfGroup _ h
  | rb => exact State.gateOk_recheck _ h
  | tr => exact State.gateOk_ite h fun _ => State.gateOk_congr h
  | re | rs | st | hd | rl | sq | unknown _ => exact h

theorem State.gateOk_ownCompletion (f : Frame) {s : State} (h : s.GateOk) : (s.ownCompletion f).GateOk := by
  have idle : ((s.settleAttempt true).modLine (fun l => { l with tx := none })).GateOk :=
    State.gateOk_congr h
  have freed : (if s.sentAll then (s.settleAttempt true).modLine (fun l => { l with tx := none })
      else ((s.settleAttempt true).modLine (fun l => { l with tx := none })).showLine .high).GateOk := by
    split
    · exact idle
    · exact State.gateOk_showLine .high idle
  have done := State.gateOk_dispatchOwn f (State.gateOk_of_onlyLine (State.onlyLine_frameComplete f.post.data _) freed)
  unfold State.ownCompletion
  dsimp only
  split
  · exact State.gateOk_directStart (State.gateOk_chooseAgain done)
  · exact State.gateOk_followUp s done

theorem State.gateOk_completeInFlight (about : Kind → Bool) {s : State} (h : s.GateOk) :
    (s.completeInFlight about).GateOk := by
  unfold State.completeInFlight
  split
  · exact State.gateOk_ite h fun _ => State.gateOk_ownCompletion _ h
  · exact h

theorem State.gateOk_takeData (head station loc data : Byte) {s : State} (h : s.GateOk) :
    (s.takeData head station loc data).GateOk := by
  unfold State.takeData
  dsimp only
  split
  · exact State.gateOk_ownCompletion _ h
  · exact State.gateOk_peerFrame _ h

theorem State.gateOk_takeClean (data : Byte) (mark : Bool) {s : State} (h : s.GateOk) :
    (s.takeClean data mark).GateOk := by
  have handed := State.gateOk_characterHanded (RawChar.ofClean data mark) h
  unfold State.takeClean
  dsimp only
  split
  · exact State.gateOk_congr handed
  · split
    · exact handed
    · split
      · exact State.gateOk_congr handed
      · exact State.gateOk_congr handed
      · exact State.gateOk_takeData _ _ _ data h
      · exact handed

theorem State.gateOk_selfTestHanded (raw : RawChar) {s : State} (h : s.GateOk) :
    (s.selfTestHanded raw).GateOk := by
  have handed := State.gateOk_characterHanded raw h
  unfold State.selfTestHanded
  dsimp only
  split
  · exact State.gateOk_ite handed fun _ => State.gateOk_congr handed
  · exact handed

theorem State.gateOk_characterArrives (raw : RawChar) {s : State} (h : s.GateOk) :
    (s.characterArrives raw).GateOk := by
  have assembled : (if raw.status = .clean then s.takeClean raw.data raw.mark
      else (s.characterHanded raw).discardAssembly).GateOk := by
    split
    · exact State.gateOk_takeClean _ _ h
    · exact State.gateOk_discardAssembly (State.gateOk_characterHanded raw h)
  unfold State.characterArrives
  cases s.mode with
  | straps => exact State.gateOk_characterHanded raw h
  | selfTest => exact State.gateOk_selfTestHanded raw h
  | listen | run | quiet | strapFault => exact assembled

/-! ### Start-up (10) -/

/-- Right after a reset every engine is cleared (R18). -/
theorem State.gateOk_afterReset (s : State) : s.afterReset.GateOk := fun k _ => PerDistrict.get_all Engine.reset k

theorem State.onlyDistrict_configureDistrict (c : StationConfig) (k : District) (s : State) :
    State.onlyDistrict k s (State.configureDistrict c k s) := by
  have flagged := State.onlyDistrict_modRecord k (fun d => { d with reversing := c.reverses k }) s
  unfold State.configureDistrict
  dsimp only
  split
  · split
    · exact State.onlyDistrict_trans flagged (State.onlyDistrict_modRelay k _ _)
    · exact flagged
  · exact State.onlyDistrict_trans flagged (State.onlyDistrict_modRelay k _ _)

theorem State.gateOk_configureDistrict (c : StationConfig) (k : District) {s : State} (h : s.GateOk) :
    (State.configureDistrict c k s).GateOk := by
  have flagged : (s.modRecord k (fun d => { d with reversing := c.reverses k })).GateOk :=
    State.gateOk_modRecord h rfl
  unfold State.configureDistrict
  dsimp only
  split
  · split
    · exact State.gateOk_modRelay k _ flagged
    · exact flagged
  · exact State.gateOk_modRelay k _ flagged

theorem State.gateOk_decodeNow {s : State} (h : s.GateOk) : s.decodeNow.GateOk := by
  unfold State.decodeNow
  dsimp only
  split
  · rename_i c _
    have configured := State.eachDistrict_keeps (P := State.GateOk) (State.onlyDistrict_configureDistrict c)
      (fun k _ => State.gateOk_configureDistrict c k)
      (State.gateOk_congr (t := { s with converter := .scan 0 0, config := some c }) h)
    exact State.gateOk_congr configured
  · exact State.gateOk_congr h

theorem State.gateOk_strapReading (strap : Fin 6) (round : Fin 4) (code : Code) {s : State} (h : s.GateOk) :
    (s.strapReading strap round code).GateOk := by
  refine State.gateOk_ite h fun _ => ?_
  dsimp only
  split
  · exact State.gateOk_decodeNow (State.gateOk_congr h)
  · exact State.gateOk_congr h

theorem State.gateOk_endListen {s : State} (h : s.GateOk) : s.endListen.GateOk := by
  unfold State.endListen
  dsimp only
  split
  · exact State.gateOk_followUp _ (State.gateOk_enterQuiet (State.gateOk_congr h))
  · exact State.gateOk_chooseAgain (State.gateOk_clearCause .start (State.gateOk_congr h))

/-! ### Every command, and the step -/

/-- Every command keeps the engines of districts whose gate is off cleared, each by its own meaning. -/
theorem exec_keeps_gateOk (c : Instr) {s t : State} (h : s.GateOk) (next : exec c s = .next t) : t.GateOk := by
  cases c
  all_goals cases Host.Outcome.next.inj next
  case reset => exact State.gateOk_afterReset s
  case strapReading strap round code => exact State.gateOk_strapReading strap round code h
  case currentSample k code => exact State.gateOk_currentSample k code h
  case supplySample v => exact State.gateOk_supplySample v h
  case probePulseStart k => exact State.gateOk_pulseStart k h
  case rawInputChange pin level => exact State.gateOk_setQualifier pin _ h
  case debounceExpiry pin => exact State.gateOk_debounceExpiry pin h
  case breakDriveMinimumEnd => exact State.gateOk_driveMinimumEnd h
  case coolingExpiry k =>
    exact State.gateOk_ite h fun _ => State.gateOk_enterProbing k (State.gateOk_modRecord h rfl)
  case settleWindowExpiry k => exact State.gateOk_ite h fun _ => State.gateOk_modRecord h rfl
  case rampKAdvance k => exact State.gateOk_rampAdvances k h
  case rampCompletion k => exact State.gateOk_rampCompletes k h
  case contendTimeout k => exact State.gateOk_ite h fun _ => State.gateOk_enterSwitching k h
  case confirmTimeout k => exact State.gateOk_confirmRunsOut k h
  case flipWatchEnd k => exact State.gateOk_ite h fun _ => State.gateOk_modRecord h rfl
  case yieldWatchEnd k => exact State.gateOk_ite h fun _ => State.gateOk_modRecord h rfl
  case chatterWindowExpiry k => exact State.gateOk_ite h fun _ => State.gateOk_modRelay k _ h
  case pardonWindowEnd k => exact State.gateOk_modRecord h rfl
  case millisecondTick => exact State.gateOk_mapRecords DistrictRecord.gate_tick rfl rfl h
  case peerEntryExpiry => exact State.gateOk_directStart (State.gateOk_congr h)
  case floorExpiry => exact State.gateOk_directStart (State.gateOk_congr h)
  case holdoffEnd => exact State.gateOk_directStart (State.gateOk_congr h)
  case lampPhaseAdvance => exact State.gateOk_congr h
  case selftestCharacter raw => exact State.gateOk_ite h fun _ => State.gateOk_selfTestHanded raw h
  case endOfSelftest => exact State.gateOk_ite h fun _ => State.gateOk_congr h
  case endOfListen => exact State.gateOk_ite h fun _ => State.gateOk_endListen h
  case characterError raw => exact State.gateOk_characterArrives raw h
  case shortError head => exact State.gateOk_characterArrives _ h
  case idleGap => exact State.gateOk_idleGap h
  case idleBoundaryAttempt => exact State.gateOk_idleBoundary h
  case join idle => exact State.gateOk_joinEdge _ h
  case arbitrationLoss => exact State.gateOk_arbitrationLost h
  case driverFault => exact State.gateOk_driverFault h
  case breakDetected => exact State.gateOk_breakDetected h
  case breakEnd => exact State.gateOk_of_sameOutsideLine (State.sameOutsideLine_breakEnds s) h
  case cleanCharacter data mark => exact State.gateOk_characterArrives _ h
  case lineFallingEdge idle => exact State.gateOk_of_sameOutsideLine (State.sameOutsideLine_fallingEdge _ s) h
  case startRecheck level => exact State.gateOk_of_sameOutsideLine (State.sameOutsideLine_startRecheck level s) h
  case ownFiCompletion => exact State.gateOk_completeInFlight _ h
  case ownRbCompletion => exact State.gateOk_completeInFlight _ h
  case ownTrCompletion => exact State.gateOk_completeInFlight _ h
  case ownFrameCompletion => exact State.gateOk_completeInFlight _ h
  all_goals exact State.gateOk_peerFrame _ h

/-- The clock runs a due command or lets a microsecond pass, which keeps every gate and engine. -/
theorem clockStep_keeps_gateOk {s t : State} (h : s.GateOk) (next : s.clockStep = .next t) : t.GateOk := by
  unfold State.clockStep at next
  split at next
  · cases Host.Outcome.next.inj next
    exact State.gateOk_mapRecords DistrictRecord.gate_advance rfl rfl h
  · exact exec_keeps_gateOk _ h next
  · exact exec_keeps_gateOk _ (State.gateOk_congr h) next

end Sys2Proof.Machine

open Sys2Proof Sys2Proof.Machine

/-- Settles O57: by the command at the front of the queue, or the clock, each of which keeps the invariant. -/
theorem stepKeepsGateOk : Obligations.StepKeepsGateOk := by
  intro s t h next
  unfold step at next
  split at next
  · exact clockStep_keeps_gateOk h next
  · exact exec_keeps_gateOk _ (State.gateOk_congr h) next

end

section
/-! PROOFS. A sample and the trip engine (02): what the engine makes of a sample, what CURRENT_SAMPLE hands on to it,
and what follows a district's step where no place in QUEUED is taken or left. -/

namespace Sys2Proof.Machine

/-! ### The engine -/

theorem isHard_iff (l : Nat) (c : Code) :
    isHard l c = true ↔ c.toNat = 1023 ∨ min (3 * l) 10000 ≤ 10 * c.toNat := by
  unfold isHard
  rw [Bool.or_eq_true, beq_iff_eq, decide_eq_true_iff]
  exact Iff.rfl

theorem Engine.sample_hard {l allowance : Nat} {full : Detection} {mayEarly : Bool} {c : Code} {g : Engine}
    (second : isHard l c = true ∧ 2 ≤ g.hardRun + 1) :
    (g.sample l allowance full mayEarly c).2 = some .hard := by
  obtain ⟨hard, run⟩ := second
  unfold Engine.sample
  dsimp only
  rw [if_pos hard, if_pos (show Config.NHARD ≤ g.hardRun + 1 from run)]

/-- Short of a second hard sample the hard-run counter stays below NHARD (R22). -/
theorem Engine.hardRun_lt {l : Nat} {c : Code} {g : Engine} (notSecond : ¬ (isHard l c = true ∧ 2 ≤ g.hardRun + 1)) :
    ¬ Config.NHARD ≤ (if isHard l c then g.hardRun + 1 else 0) := by
  unfold Config.NHARD
  split
  · rename_i hard
    exact fun run => notSecond ⟨hard, run⟩
  · omega

theorem Engine.sample_full {l allowance : Nat} {full : Detection} {mayEarly : Bool} {c : Code} {g : Engine}
    (notSecond : ¬ (isHard l c = true ∧ 2 ≤ g.hardRun + 1))
    (reached : accumulate l allowance c g.excess = tripBound l) :
    (g.sample l allowance full mayEarly c).2 = some full := by
  unfold Engine.sample
  dsimp only
  rw [if_neg (Engine.hardRun_lt notSecond), if_pos reached]

theorem Engine.sample_early {l allowance : Nat} {full : Detection} {c : Code} {g : Engine}
    (notSecond : ¬ (isHard l c = true ∧ 2 ≤ g.hardRun + 1))
    (below : accumulate l allowance c g.excess ≠ tripBound l)
    (threshold : earlyThreshold l ≤ accumulate l allowance c g.excess) :
    (g.sample l allowance full true c).2 = some .early := by
  unfold Engine.sample
  dsimp only
  rw [if_neg (Engine.hardRun_lt notSecond), if_neg below, if_pos (by simpa using threshold)]

theorem Engine.sample_undetected {l allowance : Nat} {full : Detection} {mayEarly : Bool} {c : Code} {g : Engine}
    (notSecond : ¬ (isHard l c = true ∧ 2 ≤ g.hardRun + 1))
    (below : accumulate l allowance c g.excess ≠ tripBound l)
    (notEarly : ¬ (mayEarly = true ∧ earlyThreshold l ≤ accumulate l allowance c g.excess)) :
    g.sample l allowance full mayEarly c =
      ({ excess := accumulate l allowance c g.excess, hardRun := if isHard l c then g.hardRun + 1 else 0,
         probe := g.probe }, none) := by
  unfold Engine.sample
  dsimp only
  rw [if_neg (Engine.hardRun_lt notSecond), if_neg below, if_neg (by simpa using notEarly)]

/-- E comes to stand at T (R23, R24). -/
theorem accumulate_full {l allowance : Nat} {c : Code} {e : Nat} (above : l + allowance < 10 * c.toNat)
    (reached : 8 * l ≤ e + (10 * c.toNat - (l + allowance))) : accumulate l allowance c e = tripBound l := by
  unfold accumulate current tripBound
  rw [if_pos above, Nat.min_eq_right reached]

/-! ### The hand-over of a sample -/

theorem State.sampled_eq (k : District) (code : Code) (s : State) :
    ({ s with isenPins := s.isenPins.set k code, converter := s.converter.handedOn k.val } : State) =
      s.sampled k code := by
  unfold State.sampled Converter.handedOn
  cases s.converter <;> rfl

theorem State.unmoved_sampled (k : District) (code : Code) (s : State) : s.Unmoved (s.sampled k code) :=
  ⟨rfl, rfl, rfl, rfl, rfl⟩

/-- With a configuration the sample goes to the trip engine of its district (R6, R19). -/
theorem exec_currentSample {k : District} {code : Code} {s : State} {c : StationConfig} (mode : s.mode ≠ .straps)
    (config : s.config = some c) :
    exec (.currentSample k code) s =
      .next (State.followUp s ((s.sampled k code).treatSample k c.level code)) := by
  show Host.Outcome.next (s.currentSample k code) = _
  unfold State.currentSample
  rw [if_neg mode]
  dsimp only
  rw [State.sampled_eq, config]

theorem exec_currentSample_unconfigured {k : District} {code : Code} {s : State} (mode : s.mode ≠ .straps)
    (config : s.config = none) : exec (.currentSample k code) s = .next (s.sampled k code) := by
  show Host.Outcome.next (s.currentSample k code) = _
  unfold State.currentSample
  rw [if_neg mode]
  dsimp only
  rw [State.sampled_eq, config]

/-- With its gate off a district's sample is discarded (R20). -/
theorem State.treatSample_gateOff {k : District} {s : State} (off : s.gate k = false) (l : Nat) (c : Code) :
    s.treatSample k l c = s := by
  unfold State.treatSample
  cases state : (s.record k).state with
  | live =>
    rw [State.gate_of_live state] at off
    cases off
  | ramping =>
    rw [State.gate_of_ramping state] at off
    cases off
  | probing =>
    refine if_neg fun pulse => ?_
    rw [State.gate_of_pulse state pulse] at off
    cases off
  | halted | dark | cooling | queued | contend | switching | locked => rfl

theorem State.treatSample_live {k : District} {s : State} (live : (s.record k).state = .live) (l : Nat) (c : Code) :
    s.treatSample k l c = s.sampleLive k l c := by
  unfold State.treatSample
  rw [live]

theorem State.treatSample_ramping {k : District} {s : State} (ramping : (s.record k).state = .ramping) (l : Nat)
    (c : Code) : s.treatSample k l c = s.sampleRamping k l c := by
  unfold State.treatSample
  rw [ramping]

theorem State.treatSample_pulse {k : District} {s : State} (probing : (s.record k).state = .probing)
    (pulse : (s.record k).phase = .pulse) (l : Nat) (c : Code) : s.treatSample k l c = s.sampleProbe k l c := by
  unfold State.treatSample
  rw [probing]
  exact if_pos pulse

theorem State.sampleLive_detects {k : District} {s : State} {l : Nat} {c : Code} {det : Detection}
    (detects : ((s.engine k).sample l 0 .overload
      ((s.record k).reversing && (s.record k).watch != .flip) c).2 = some det) :
    ∃ e : Engine, s.sampleLive k l c = (s.setEngine k e).detectLive k det := by
  unfold State.sampleLive
  dsimp only
  rw [detects]
  exact ⟨_, rfl⟩

theorem State.sampleRamping_detects {k : District} {s : State} {l : Nat} {c : Code} {det : Detection}
    (detects : ((s.engine k).sample l (rampAllowance l (s.record k).k) .inrush false c).2 = some det) :
    ∃ e : Engine, s.sampleRamping k l c = (s.setEngine k e).detectRamping k det := by
  unfold State.sampleRamping
  dsimp only
  rw [detects]
  exact ⟨_, rfl⟩

theorem State.sampleLive_undetected {k : District} {s : State} {l : Nat} {c : Code} {e : Engine}
    (undetected : (s.engine k).sample l 0 .overload
      ((s.record k).reversing && (s.record k).watch != .flip) c = (e, none)) :
    s.sampleLive k l c = s.setEngine k e := by
  unfold State.sampleLive
  dsimp only
  rw [undetected]

theorem State.sampleRamping_undetected {k : District} {s : State} {l : Nat} {c : Code} {e : Engine}
    (undetected : (s.engine k).sample l (rampAllowance l (s.record k).k) .inrush false c = (e, none)) :
    s.sampleRamping k l c = s.setEngine k e := by
  unfold State.sampleRamping
  dsimp only
  rw [undetected]

/-! ### What follows where no place in QUEUED is taken or left -/

/-- A district in neither of two states that another state names counts for it neither before nor after. -/
theorem State.standing_of_othersKept {k : District} {s t : State} {st : DistrictState}
    (others : State.othersKept k s t) (before : (s.record k).state ≠ st) (after : (t.record k).state ≠ st)
    (j : District) : ((t.record j).state == st) = ((s.record j).state == st) := by
  by_cases same : j = k
  · subst same
    rw [beq_false_of_ne before, beq_false_of_ne after]
  · rw [(others j same).1]

theorem State.queuedDistricts_of_othersKept {k : District} {s t : State} (others : State.othersKept k s t)
    (before : (s.record k).state ≠ .queued) (after : (t.record k).state ≠ .queued) :
    s.queuedDistricts = t.queuedDistricts :=
  List.filter_congr fun j _ => (State.standing_of_othersKept others before after j).symm

theorem State.anyDistrict_of_othersKept {k : District} {s t : State} {st : DistrictState}
    (others : State.othersKept k s t) (before : (s.record k).state ≠ st) (after : (t.record k).state ≠ st) :
    t.anyDistrict st = s.anyDistrict st := by
  unfold State.anyDistrict
  simp only [State.standing_of_othersKept others before after]

/-- Eligibility goes by the list, the floor, the hold-off, the configuration and the halt (R143, R154). -/
theorem State.eligible_congr {s t : State} (list : t.ramp.list = s.ramp.list) (floor : t.ramp.floor = s.ramp.floor)
    (holdoff : t.ramp.holdoff = s.ramp.holdoff) (config : t.config = s.config) (halt : t.halt = s.halt) :
    t.eligible = s.eligible := by
  unfold State.eligible State.roomForRamp State.budgetInForce State.budget
  rw [list, floor, holdoff, config, State.halted_congr halt]

theorem State.followUp_sameQueued {before s : State} (h : before.queuedDistricts = s.queuedDistricts) :
    State.followUp before s = s.directStart := by
  unfold State.followUp
  dsimp only
  rw [if_pos h]

/-- A district's step from outside QUEUED and RAMPING to outside them, with the ramp list kept, is followed by
nothing where no start is owed (R155, R161). -/
theorem State.followUp_of_rampKept {k : District} {s m t : State} (owed : s.NoStartOwed) (unmoved : s.Unmoved m)
    (only : State.onlyDistrict k m t) (kept : State.rampKept m t)
    (before : (s.record k).state ≠ .queued ∧ (s.record k).state ≠ .ramping)
    (after : (t.record k).state ≠ .queued ∧ (t.record k).state ≠ .ramping) : State.followUp s t = t := by
  have record (j : District) : m.record j = s.record j :=
    congrArg (fun q => PerDistrict.get q j) unmoved.districts
  rw [← record k] at before
  have queued := State.queuedDistricts_of_othersKept only.1 before.1 after.1
  have ramp : t.ramp.list = m.ramp.list ∧ t.ramp.floor = m.ramp.floor ∧ t.ramp.holdoff = m.ramp.holdoff := by
    rw [kept.1]
    exact ⟨rfl, rfl, rfl⟩
  obtain ⟨list, floor, holdoff⟩ := ramp
  refine State.followUp_settled ((State.queuedDistricts_congr unmoved.districts).symm.trans queued) ?_
  have owed' := unmoved.noStartOwed owed
  unfold State.NoStartOwed at owed' ⊢
  rw [State.mode_of_sameOutside only.2, State.anyDistrict_of_othersKept only.1 before.2 after.2, ← queued,
    State.eligible_congr list floor holdoff (State.config_of_sameOutside only.2) (State.halt_of_sameOutside only.2)]
  exact owed'

/-! ### The direct start of another district -/

/-- What a direct start of the same step (R161) can do as a district sees it that is not QUEUED itself. -/
structure State.StartsOther (k : District) (s t : State) : Prop where
  outside : State.sameOutsideDistricts s t
  outsideQuiet : s.mode ≠ .quiet → t = s
  record : t.record k = s.record k
  engine : t.engine k = s.engine k
  relay : t.relay k = s.relay k
  alert : t.alert = s.alert
  holdoff : t.ramp.holdoff = s.ramp.holdoff
  floor : t.ramp.floor = s.ramp.floor
  intentAge : t.ramp.intentAge = s.ramp.intentAge
  keeps : ∀ e ∈ s.ramp.list, e ∈ t.ramp.list
  ownEntry : t.hasOwnEntry k = s.hasOwnEntry k
  emptyQueue : s.queue = [] → t.queue = []
  told : s.ramp.rbDistrict = none → t.ramp.rbDistrict = none

theorem State.startsOther_refl (k : District) (s : State) : State.StartsOther k s s :=
  ⟨rfl, fun _ => rfl, rfl, rfl, rfl, rfl, rfl, rfl, rfl, fun _ h => h, rfl, id, id⟩

theorem State.depart_of_queued {k : District} {s : State} (h : (s.record k).state = .queued) :
    s.depart k = s.withdrawRb k := by
  unfold State.depart
  rw [h]

theorem State.startsOther_startRamp {j k : District} {s : State} (quiet : s.mode = .quiet)
    (queued : (s.record j).state = .queued) (other : k ≠ j) : State.StartsOther k s (s.startRamp j) := by
  obtain ⟨others, outside⟩ := State.onlyDistrict_startRamp j s
  obtain ⟨record, engine, relay⟩ := others k other
  have ramp : (s.startRamp j).ramp =
      { s.ramp with list := s.ramp.list ++ [{ station := (s.moveOff j DistrictRecord.toRamping).stationId,
                                              district := j, kind := .own }],
                    rbDistrict := if s.ramp.rbDistrict = some j then none else s.ramp.rbDistrict } := by
    unfold State.startRamp State.addOwnEntry State.modRamp
    rw [State.ramp_moveOff, State.depart_of_queued queued]
    rfl
  have queue : (s.startRamp j).queue = s.queue.filterMap (Entry.withdrawnFor .rb j) := by
    rw [State.startRamp, State.addOwnEntry, State.queue_modRamp, State.queue_moveOff, State.depart_of_queued queued]
    rfl
  refine ⟨outside, fun notQuiet => absurd quiet notQuiet, record, engine, relay, State.alert_startRamp j s,
    ?_, ?_, ?_, ?_, ?_, ?_, ?_⟩
  · rw [ramp]
  · rw [ramp]
  · rw [ramp]
  · intro e he
    rw [ramp]
    exact List.mem_append_left _ he
  · unfold State.hasOwnEntry
    rw [ramp]
    simp [Ne.symm other]
  · intro empty
    rw [queue, empty]
    rfl
  · intro none
    rw [ramp, none]
    rfl

/-- The direct start is that of a QUEUED district (R161). -/
theorem State.startsOther_directStart {k : District} {s : State} (notQueued : (s.record k).state ≠ .queued) :
    State.StartsOther k s s.directStart := by
  unfold State.directStart
  split
  · rename_i free
    split
    · rename_i j longest
      have queued := longestQueued_queued longest
      refine State.startsOther_startRamp free.1 queued fun same => notQueued ?_
      rw [same]
      exact queued
    · exact State.startsOther_refl k s
  · exact State.startsOther_refl k s

/-- What follows the step of a district that takes and leaves no place in QUEUED is at most the direct start of
another (R155, R161). -/
theorem State.startsOther_followUp {k : District} {s m t : State} (unmoved : s.Unmoved m)
    (only : State.onlyDistrict k m t) (before : (s.record k).state ≠ .queued)
    (after : (t.record k).state ≠ .queued) : State.StartsOther k t (State.followUp s t) := by
  have record : m.record k = s.record k := congrArg (fun q => PerDistrict.get q k) unmoved.districts
  rw [← record] at before
  have queued := State.queuedDistricts_of_othersKept only.1 before after
  rw [State.followUp_sameQueued ((State.queuedDistricts_congr unmoved.districts).symm.trans queued)]
  exact State.startsOther_directStart after

end Sys2Proof.Machine

open Sys2Proof Sys2Proof.Machine

/-- Settles O4, value by value; what is said of each input and district is checked for all of them. -/
theorem resetValues : Obligations.ResetValues := by
  unfold Obligations.ResetValues State.AtReset
  refine ⟨⟨rfl, rfl, rfl, rfl, rfl, rfl, rfl, rfl, rfl, ?inputs, ?engines, ?records, ?relays, ?outputs, rfl, rfl, rfl,
    rfl, rfl, rfl, rfl, rfl, rfl, rfl, rfl, rfl, rfl, rfl, rfl, rfl⟩, rfl⟩
  case inputs => decide
  case engines => exact PerDistrict.get_all Engine.reset
  case records =>
    intro k
    have record : State.reset.record k = DistrictRecord.reset := PerDistrict.get_all _ k
    rw [record]
    decide
  case relays => exact PerDistrict.get_all Relay.reset
  case outputs => decide

/-- Settles O11: with the gate off nothing is treated, and a sample without a detection leaves the engine's new
values alone. -/
theorem sampleWithoutDetection : Obligations.SampleWithoutDetection := by
  intro s k code mode owed
  have settled (e : Engine) : State.followUp s ((s.sampled k code).setEngine k e) = (s.sampled k code).setEngine k e :=
    State.followUp_unmoved ⟨rfl, rfl, rfl, rfl, rfl⟩ owed
  refine ⟨fun off => ?_, fun c config state => ?_⟩
  · cases config : s.config with
    | none => exact exec_currentSample_unconfigured mode config
    | some c =>
      rw [exec_currentSample mode config, State.treatSample_gateOff (s := s.sampled k code) off,
        State.followUp_unmoved (State.unmoved_sampled k code s) owed]
  · intro l i leff hard run e below notFull notEarly
    rw [exec_currentSample mode config]
    have notSecond : ¬ (isHard l code = true ∧ 2 ≤ (s.engine k).hardRun + 1) := by
      rintro ⟨isHard, second⟩
      have : run = (s.engine k).hardRun + 1 := if_pos ((isHard_iff l code).mp isHard)
      omega
    have runs : (if isHard l code then (s.engine k).hardRun + 1 else 0) = run := by
      simp only [isHard_iff]
      rfl
    rcases state with live | ramping
    · have excess : accumulate l 0 code (s.engine k).excess = e := by
        have level : leff = l := if_neg (by simp [live])
        show accumulate l 0 code _ = if leff < i then _ else _
        rw [level]
        rfl
      have undetected := Engine.sample_undetected (full := .overload) (allowance := 0)
        (mayEarly := (s.record k).reversing && (s.record k).watch != .flip) notSecond (by rwa [excess]) (by
          rw [excess, Bool.and_eq_true, bne_iff_ne]
          rintro ⟨⟨reversing, watch⟩, threshold⟩
          exact notEarly ⟨live, reversing, watch, threshold⟩)
      rw [excess, runs] at undetected
      rw [State.treatSample_live (s := s.sampled k code) live,
        State.sampleLive_undetected (s := s.sampled k code) (l := c.level) undetected, settled]
    · have excess : accumulate l (rampAllowance l (s.record k).k) code (s.engine k).excess = e := by
        have level : leff = l + rampAllowance l (s.record k).k := if_pos ramping
        show accumulate l _ code _ = if leff < i then _ else _
        rw [level]
        rfl
      have undetected := Engine.sample_undetected (full := .inrush) (mayEarly := false) notSecond (by rwa [excess])
        (by simp)
      rw [excess, runs] at undetected
      rw [State.treatSample_ramping (s := s.sampled k code) ramping,
        State.sampleRamping_undetected (s := s.sampled k code) (l := c.level) undetected, settled]

end

section
/-! PROOFS. Trips and counted failures (03): the record, the TR and the latch that a fault leaves, and the ends that a
detection and a verdict SHORT bring (R41 to R47, R51, R55, R58, R87, R88). -/

namespace Sys2Proof.Machine

/-! ### What a posting rests on -/

theorem State.frameFor_congr {s t : State} (config : t.config = s.config) (kind : Kind) (k : District) (data : Nat) :
    t.frameFor kind k data = s.frameFor kind k data := by
  unfold State.frameFor
  rw [State.group_congr config]

theorem State.queueWith_congr {s t : State} (mode : t.mode = s.mode) (queue : t.queue = s.queue) (p : Post) :
    t.queueWith p = s.queueWith p := by
  unfold State.queueWith
  rw [mode, queue]

theorem State.rbDistrict_post_congr {s t : State} (mode : t.mode = s.mode) (queue : t.queue = s.queue)
    (rbDistrict : t.ramp.rbDistrict = s.ramp.rbDistrict) (p : Post) :
    (t.post p).ramp.rbDistrict = (s.post p).ramp.rbDistrict := by
  unfold State.post
  rw [mode]
  split
  · dsimp only
    rw [queue, rbDistrict]
  · exact rbDistrict

@[simp] theorem State.engine_post (p : Post) (s : State) (k : District) : (s.post p).engine k = s.engine k := by
  unfold State.engine
  rw [State.engines_post]

@[simp] theorem State.relay_post (p : Post) (s : State) (k : District) : (s.post p).relay k = s.relay k := by
  unfold State.relay
  rw [State.relays_post]

theorem State.ramp_post (p : Post) (s : State) :
    (s.post p).ramp = { s.ramp with rbDistrict := (s.post p).ramp.rbDistrict } := by
  conv_lhs => rw [State.post_frame]

/-! ### What a departure takes along -/

theorem State.queue_depart {k : District} {s : State} (notQueued : (s.record k).state ≠ .queued)
    (notContend : (s.record k).state ≠ .contend) : (s.depart k).queue = s.queue := by
  unfold State.depart
  cases state : (s.record k).state with
  | queued => exact absurd state notQueued
  | contend => exact absurd state notContend
  | halted | dark | live | cooling | probing | ramping | switching | locked => rfl

theorem State.rbDistrict_depart {k : District} {s : State} (notQueued : (s.record k).state ≠ .queued) :
    (s.depart k).ramp.rbDistrict = s.ramp.rbDistrict := by
  unfold State.depart
  cases state : (s.record k).state with
  | queued => exact absurd state notQueued
  | halted | dark | live | cooling | probing | ramping | contend | switching | locked => rfl

theorem State.depart_of_ramping {k : District} {s : State} (ramping : (s.record k).state = .ramping) :
    s.depart k = s.removeOwnEntry k := by
  unfold State.depart
  rw [ramping]

/-- From a state that a district leaves without a trace elsewhere it departs with nothing (R67). -/
theorem State.depart_of_plain {k : District} {s : State}
    (plain : (s.record k).state = .live ∨ (s.record k).state = .probing) : s.depart k = s := by
  unfold State.depart
  rcases plain with state | state <;> rw [state]

/-- What a departure takes along goes by the state alone. -/
theorem State.ramp_depart_setRecord {k : District} {s : State} {d : DistrictRecord}
    (state : d.state = (s.record k).state) : ((s.setRecord k d).depart k).ramp = (s.depart k).ramp := by
  unfold State.depart
  rw [State.record_setRecord_self, state]
  cases (s.record k).state <;> rfl

/-! ### A fault with its TR -/

/-- What a fault of district k with n after it leaves, but for the record (R36, R44, R45, R58): the engine cleared, one
TR, the own entry of a ramp removed, and the latch set where the district locks. -/
structure State.FailsTo (k : District) (fault : FaultKind) (n : Nat) (s t : State) : Prop where
  only : State.onlyDistrict k s t
  engine : t.engine k = Engine.cleared
  relay : t.relay k = s.relay k
  queue : t.queue = s.queueWith (s.frameFor .tr k (16 * fault.code + n))
  ramp : t.ramp = { (s.depart k).ramp with
    rbDistrict := (s.post (s.frameFor .tr k (16 * fault.code + n))).ramp.rbDistrict }
  alert : t.alert = (s.alert || decide (8 ≤ n))

theorem State.postTr_eq {k : District} {s : State} {fault : FaultKind} {n : Nat}
    (lastFault : (s.record k).lastFault = fault) (count : (s.record k).n = n) :
    s.postTr k = s.post (s.frameFor .tr k (16 * fault.code + n)) := by
  subst lastFault count
  rfl

/-- Where a fault takes a district: to LOCKED at NLOCK, else to COOLING (R43, R44, R58). -/
def DistrictRecord.afterFault (n : Nat) (window : Bool) (d : DistrictRecord) : DistrictRecord :=
  if Config.NLOCK ≤ n then d.toLocked else d.toCooling window

theorem DistrictRecord.afterFault_keeps (n : Nat) (window : Bool) (d : DistrictRecord) :
    (d.afterFault n window).lastFault = d.lastFault ∧ (d.afterFault n window).n = d.n := by
  unfold DistrictRecord.afterFault
  split <;> exact ⟨rfl, rfl⟩

/-- The latch set where a fault locks its district, and as it was elsewhere (R58, R193, R194). -/
def State.latchIf (locks : Bool) (s : State) : State := { s with alert := s.alert || locks }

theorem State.onlyDistrict_latchIf (k : District) (locks : Bool) (s : State) :
    State.onlyDistrict k s (s.latchIf locks) := ⟨fun _ _ => ⟨rfl, rfl, rfl⟩, rfl⟩

/-- A fault is one move with one TR, and the latch beside it where the district locks. -/
theorem State.failWith_eq (k : District) (fault : FaultKind) (n : Nat) (window : Bool) (s : State) :
    s.failWith k fault n window =
      (((s.setRecord k { s.record k with lastFault := fault, n := n }).moveOff k
        (DistrictRecord.afterFault n window)).latchIf (decide (8 ≤ n))).postTr k := by
  unfold State.failWith DistrictRecord.afterFault State.latchIf
  by_cases locks : Config.NLOCK ≤ n
  · simp only [if_pos locks]
    rw [decide_eq_true (show 8 ≤ n from locks), Bool.or_true]
    rfl
  · simp only [if_neg locks]
    rw [decide_eq_false (show ¬ 8 ≤ n from locks), Bool.or_false]
    rfl

/-- The TR of a move that left the queue, and the latch where the district locks, make up what a fault leaves. -/
theorem State.failsTo_postTr {k : District} {s u : State} {fault : FaultKind} {n : Nat}
    (notQueued : (s.record k).state ≠ .queued) (only : State.onlyDistrict k s u)
    (lastFault : (u.record k).lastFault = fault) (count : (u.record k).n = n)
    (engine : u.engine k = Engine.cleared) (relay : u.relay k = s.relay k) (queue : u.queue = s.queue)
    (ramp : u.ramp = (s.depart k).ramp) (alert : u.alert = s.alert) :
    State.FailsTo k fault n s ((u.latchIf (decide (8 ≤ n))).postTr k) := by
  have latched := State.onlyDistrict_trans only (State.onlyDistrict_latchIf k (decide (8 ≤ n)) u)
  have mode : (u.latchIf (decide (8 ≤ n))).mode = s.mode := State.mode_of_sameOutside latched.2
  have rbDistrict : u.ramp.rbDistrict = s.ramp.rbDistrict := by
    rw [ramp, State.rbDistrict_depart notQueued]
  rw [State.postTr_eq (s := u.latchIf _) lastFault count, State.frameFor_congr (State.config_of_sameOutside latched.2)]
  refine ⟨State.onlyDistrict_trans latched (State.onlyDistrict_post k _ _), ?_, ?_, ?_, ?_, ?_⟩
  · rw [State.engine_post]
    exact engine
  · rw [State.relay_post]
    exact relay
  · rw [State.queue_post, State.queueWith_congr mode queue]
  · rw [State.ramp_post, State.rbDistrict_post_congr mode queue rbDistrict, ← ramp]
    rfl
  · rw [State.alert_post, ← alert]
    rfl

theorem State.failsTo_failWith {k : District} {s : State} (fault : FaultKind) (n : Nat) (window : Bool)
    (notQueued : (s.record k).state ≠ .queued) (notContend : (s.record k).state ≠ .contend) :
    State.FailsTo k fault n s (s.failWith k fault n window) := by
  let d : DistrictRecord := { s.record k with lastFault := fault, n := n }
  let marked : State := s.setRecord k d
  have state : (marked.record k).state = (s.record k).state := by
    rw [State.record_setRecord_self]
  have record : (marked.moveOff k (DistrictRecord.afterFault n window)).record k = d.afterFault n window := by
    rw [State.record_moveOff, State.record_setRecord_self]
  obtain ⟨lastFault, count⟩ := DistrictRecord.afterFault_keeps n window d
  rw [State.failWith_eq]
  refine State.failsTo_postTr notQueued
    (State.onlyDistrict_trans (State.onlyDistrict_setRecord k d s) (State.onlyDistrict_moveOff k _ marked))
    (by rw [record, lastFault]) (by rw [record, count]) (State.engine_moveOff k _ marked)
    (State.relay_moveOff k k _ marked) ?_ ?_ ?_
  · rw [State.queue_moveOff, State.queue_depart (by rwa [state]) (by rwa [state])]
    rfl
  · rw [State.ramp_moveOff]
    exact State.ramp_depart_setRecord (d := d) rfl
  · rw [State.alert_moveOff]
    rfl

/-- With n at most NLOCK the latch is set where n comes to NLOCK. -/
theorem State.FailsTo.alert_of_le {k : District} {fault : FaultKind} {n : Nat} {s t : State}
    (failed : State.FailsTo k fault n s t) (most : n ≤ 8) : t.alert = (s.alert || decide (n = 8)) := by
  rw [failed.alert, decide_eq_decide.mpr ⟨fun h => le_antisymm most h, fun h => h.ge⟩]

/-- Away from a ramp a fault moves the ramp list unit by an overflow of its TR alone (R134, R157). -/
theorem State.FailsTo.rampKept {k : District} {fault : FaultKind} {n : Nat} {s t : State}
    (failed : State.FailsTo k fault n s t)
    (plain : (s.record k).state = .live ∨ (s.record k).state = .probing) : State.rampKept s t := by
  have ramp := failed.ramp
  rw [State.depart_of_plain plain] at ramp
  unfold State.rampKept
  rw [ramp]
  exact ⟨rfl, State.rbDistrict_post _ s⟩

/-- A fault leaves the hold-off, the floor and the last-intent age (R142), and of the list what a departure leaves. -/
theorem State.FailsTo.cut {k : District} {fault : FaultKind} {n : Nat} {s t : State}
    (failed : State.FailsTo k fault n s t) :
    t.ramp.list = (s.depart k).ramp.list ∧ t.ramp.holdoff = s.ramp.holdoff ∧ t.ramp.floor = s.ramp.floor ∧
      t.ramp.intentAge = s.ramp.intentAge ∧
      t.ramp.rbDistrict = (s.post (s.frameFor .tr k (16 * fault.code + n))).ramp.rbDistrict := by
  have departs := State.ownCut_depart k s
  rw [failed.ramp]
  exact ⟨rfl, departs.holdoff, departs.floor, departs.intentAge, rfl⟩

/-! ### Trips -/

/-- A trip: the fault, and the pardon for the window before it (R87). -/
def State.trip (k : District) (fault : FaultKind) (n : Nat) (s : State) : State :=
  (s.failWith k fault n (!(s.record k).reversing)).pardonAtTrip k

theorem State.tripLive_eq (k : District) (fault : FaultKind) (s : State) :
    s.tripLive k fault = s.trip k fault
      (if (s.record k).settle.isSome || (s.record k).watch == .flip then (s.record k).failedCount else 0) := rfl

theorem State.tripRamp_eq (k : District) (fault : FaultKind) (s : State) :
    s.tripRamp k fault = s.trip k fault (s.record k).failedCount := rfl

theorem State.pardonAtTrip_frame (k : District) (s : State) :
    s.pardonAtTrip k = s.setRecord k ((s.pardonAtTrip k).record k) := by
  have same : s.setRecord k (s.record k) = s := by
    have districts : s.districts.set k (s.record k) = s.districts := by
      fin_cases k <;> rfl
    unfold State.setRecord
    rw [districts]
  unfold State.pardonAtTrip
  split
  · rw [State.modRecord_eq, State.record_setRecord_self]
  · exact same.symm

theorem State.failsTo_trip {k : District} {s : State} (fault : FaultKind) (n : Nat)
    (notQueued : (s.record k).state ≠ .queued) (notContend : (s.record k).state ≠ .contend) :
    State.FailsTo k fault n s (s.trip k fault n) := by
  have failed := State.failsTo_failWith fault n (!(s.record k).reversing) notQueued notContend
  unfold State.trip
  rw [State.pardonAtTrip_frame]
  exact ⟨State.onlyDistrict_trans failed.only (State.onlyDistrict_setRecord k _ _), failed.engine, failed.relay,
    failed.queue, failed.ramp, failed.alert⟩

theorem State.record_pardonAtTrip (k : District) (s : State) :
    (s.pardonAtTrip k).record k =
      if (s.record k).pardonable = true ∧ s.ramp.intentAge ≤ Config.tPARDONms then (s.record k).pardon
      else s.record k := by
  unfold State.pardonAtTrip
  split
  · exact State.record_setRecord_self s k _
  · rfl

/-- A trip's own pardon finds the whole of tCOOL(n) ahead and leaves tPCOOL of it (R88). -/
theorem DistrictRecord.pardonedCooling_of_full {d : DistrictRecord} (full : d.cooling = Config.tCOOL d.n) :
    d.pardonedCooling = 30000 := by
  have long : 125000 ≤ Config.tCOOL d.n := by
    unfold Config.tCOOL Config.ms
    have := Nat.one_le_two_pow (n := min d.n 5)
    omega
  unfold DistrictRecord.pardonedCooling Config.tPCOOL Config.tPARDON Config.ms
  rw [full]
  dsimp only
  omega

theorem State.record_trip_locks {k : District} {s : State} (fault : FaultKind) :
    (s.trip k fault 8).record k = { s.record k with lastFault := fault, n := 8 }.toLocked := by
  unfold State.trip
  rw [State.record_pardonAtTrip, State.record_failWith, if_pos (show Config.NLOCK ≤ 8 from le_refl 8), if_neg]
  rintro ⟨pardonable, _⟩
  cases pardonable

section
variable {k : District} {s : State} (fault : FaultKind) {n : Nat} (notQueued : (s.record k).state ≠ .queued)
  (notContend : (s.record k).state ≠ .contend)
include notQueued notContend

/-- The record after a trip that does not lock: COOLING for tCOOL(n), or pardoned at once, or with the window after
the trip open (R43, R44, R47, R87, R88). -/
theorem State.record_trip_cools (few : n < 8) :
    (s.trip k fault n).record k =
      (let d := s.record k
       let pardoned := d.reversing = false ∧ s.ramp.intentAge ≤ 10
       { d with state := .cooling, lastFault := fault, n := if pardoned then n - 1 else n,
                cooling := if pardoned then 30000 else Config.tCOOL n, pardoned := pardoned, settle := none,
                watch := .none, watchLeft := 0, contend := none, yielded := false, probeFlipTried := false,
                pardonWindow := d.reversing = false ∧ ¬ s.ramp.intentAge ≤ 10 }) := by
  let failed : State := s.failWith k fault n (!(s.record k).reversing)
  let d : DistrictRecord := { s.record k with lastFault := fault, n := n }
  have record : failed.record k = d.toCooling (!(s.record k).reversing) := by
    rw [State.record_failWith, if_neg (show ¬ Config.NLOCK ≤ n from Nat.not_le.mpr few)]
  have intentAge : failed.ramp.intentAge = s.ramp.intentAge := by
    have fails := State.failsTo_failWith fault n (!(s.record k).reversing) notQueued notContend
    obtain ⟨_, _, _, intentAge, _⟩ := fails.cut
    exact intentAge
  have pardonable : (d.toCooling (!(s.record k).reversing)).pardonable = !(s.record k).reversing := by
    show (true && !(s.record k).reversing && true && !(s.record k).reversing) = _
    simp
  show (failed.pardonAtTrip k).record k = _
  rw [State.record_pardonAtTrip, record, intentAge, pardonable]
  cases reversing : (s.record k).reversing with
  | true => simp [DistrictRecord.toCooling, DistrictRecord.stopped, DistrictRecord.uncontested, d, reversing]
  | false =>
    by_cases recent : s.ramp.intentAge ≤ 10
    · simp [DistrictRecord.pardon, DistrictRecord.pardonedCooling_of_full, Config.tPARDONms, recent, d, reversing,
        DistrictRecord.toCooling, DistrictRecord.stopped, DistrictRecord.uncontested]
    · simp [Config.tPARDONms, recent, d, reversing,
        DistrictRecord.toCooling, DistrictRecord.stopped, DistrictRecord.uncontested]

/-- What a trip leaves of the count, the state and the cooling, whichever way it goes (R43, R44, R47, R58, R88). -/
theorem State.outcome_trip (most : n ≤ 8) :
    let d := s.record k
    let e := (s.trip k fault n).record k
    let pardoned := d.reversing = false ∧ s.ramp.intentAge ≤ 10 ∧ n < 8
    e.lastFault = fault ∧ e.n = (if pardoned then n - 1 else n) ∧
      e.state = (if n = 8 then .locked else .cooling) ∧
      (n < 8 → e.cooling = if pardoned then 30000 else Config.tCOOL n) ∧
      e.hold = d.hold ∧ e.reversing = d.reversing := by
  intro d e pardoned
  rcases Nat.lt_or_eq_of_le most with few | eight
  · have isPardoned : (d.reversing = false ∧ s.ramp.intentAge ≤ 10) ↔ pardoned := by
      simp only [pardoned, few, and_true]
    have record : e = _ := State.record_trip_cools fault notQueued notContend few
    rw [record, if_neg (Nat.ne_of_lt few)]
    exact ⟨rfl, if_congr isPardoned rfl rfl, rfl, fun _ => if_congr isPardoned rfl rfl, rfl, rfl⟩
  · have notPardoned : ¬ pardoned := fun ⟨_, _, few⟩ => absurd eight (Nat.ne_of_lt few)
    have record : e = { s.record k with lastFault := fault, n := 8 }.toLocked := by
      rw [← State.record_trip_locks, ← eight]
    rw [record, if_neg notPardoned, if_pos eight]
    exact ⟨rfl, eight.symm, rfl, fun few => absurd eight (Nat.ne_of_lt few), rfl, rfl⟩

theorem State.state_trip (most : n ≤ 8) :
    ((s.trip k fault n).record k).state = if n = 8 then .locked else .cooling := by
  obtain ⟨_, _, state, _⟩ := State.outcome_trip fault notQueued notContend most
  exact state

end

end Sys2Proof.Machine
end

section
/-! PROOFS. The detections in LIVE and RAMPING (R22 to R26, R42, R55, R56): to which move a second hard sample, a full
accumulator and the EARLY threshold lead; and the trip in LIVE. -/

namespace Sys2Proof.Machine

/-- The state in which a detection is acted on: the sample handed over, the engine moved by it. -/
abbrev State.measured (s : State) (k : District) (code : Code) (e : Engine) : State :=
  (s.sampled k code).setEngine k e

theorem State.unmoved_measured (s : State) (k : District) (code : Code) (e : Engine) :
    s.Unmoved (s.measured k code e) := ⟨rfl, rfl, rfl, rfl, rfl⟩

theorem State.onlyDistrict_measured (s : State) (k : District) (code : Code) (e : Engine) :
    State.onlyDistrict k (s.sampled k code) (s.measured k code e) := State.onlyDistrict_setEngine k e _

section
variable {k : District} {code : Code} {s : State} {c : StationConfig} (mode : s.mode ≠ .straps)
  (config : s.config = some c)
include mode config

/-! ### Detections in LIVE -/

theorem exec_sample_live {det : Detection} (live : (s.record k).state = .live)
    (detects : ((s.engine k).sample c.level 0 .overload
      ((s.record k).reversing && (s.record k).watch != .flip) code).2 = some det) :
    ∃ e : Engine, exec (.currentSample k code) s =
      .next (State.followUp s ((s.measured k code e).detectLive k det)) := by
  obtain ⟨e, acts⟩ := State.sampleLive_detects (s := s.sampled k code) detects
  refine ⟨e, ?_⟩
  rw [exec_currentSample mode config, State.treatSample_live (s := s.sampled k code) live, acts]

/-- HARD in LIVE is a trip in a non-reversing district and under the flip watch (R42). -/
theorem exec_hard_live_trips (live : (s.record k).state = .live)
    (second : isHard c.level code = true ∧ 2 ≤ (s.engine k).hardRun + 1)
    (barred : (s.record k).reversing = false ∨ (s.record k).watch = .flip) :
    ∃ e : Engine, exec (.currentSample k code) s =
      .next (State.followUp s ((s.measured k code e).tripLive k .hard)) := by
  obtain ⟨e, next⟩ := exec_sample_live mode config live (Engine.sample_hard second)
  have trips : (s.measured k code e).detectLive k .hard = (s.measured k code e).tripLive k .hard := by
    refine if_neg fun ⟨reversing, watch⟩ => ?_
    rcases barred with nonReversing | flip
    · exact absurd (nonReversing.symm.trans reversing) Bool.false_ne_true
    · exact watch flip
  exact ⟨e, trips ▸ next⟩

theorem exec_overload_trips (live : (s.record k).state = .live)
    (notSecond : ¬ (isHard c.level code = true ∧ 2 ≤ (s.engine k).hardRun + 1))
    (full : accumulate c.level 0 code (s.engine k).excess = tripBound c.level) :
    ∃ e : Engine, exec (.currentSample k code) s =
      .next (State.followUp s ((s.measured k code e).tripLive k .overload)) := by
  obtain ⟨e, next⟩ := exec_sample_live mode config live (Engine.sample_full notSecond full)
  exact ⟨e, next⟩

/-- HARD in LIVE is a changeover cause in a reversing district without the flip watch (R42). -/
theorem exec_hard_live_contends (live : (s.record k).state = .live)
    (second : isHard c.level code = true ∧ 2 ≤ (s.engine k).hardRun + 1)
    (reversing : (s.record k).reversing = true) (watch : (s.record k).watch ≠ .flip) :
    ∃ e : Engine, exec (.currentSample k code) s =
      .next (State.followUp s ((s.measured k code e).enterContend k .live)) := by
  obtain ⟨e, next⟩ := exec_sample_live mode config live (Engine.sample_hard second)
  have contends : (s.measured k code e).detectLive k .hard = (s.measured k code e).enterContend k .live :=
    if_pos ⟨reversing, watch⟩
  exact ⟨e, contends ▸ next⟩

theorem exec_early_contends (live : (s.record k).state = .live)
    (notSecond : ¬ (isHard c.level code = true ∧ 2 ≤ (s.engine k).hardRun + 1))
    (below : accumulate c.level 0 code (s.engine k).excess ≠ tripBound c.level)
    (threshold : earlyThreshold c.level ≤ accumulate c.level 0 code (s.engine k).excess)
    (reversing : (s.record k).reversing = true) (watch : (s.record k).watch ≠ .flip) :
    ∃ e : Engine, exec (.currentSample k code) s =
      .next (State.followUp s ((s.measured k code e).enterContend k .live)) := by
  have may : ((s.record k).reversing && (s.record k).watch != .flip) = true := by
    rw [reversing, Bool.true_and, bne_iff_ne]
    exact watch
  obtain ⟨e, next⟩ := exec_sample_live mode config live
    (by rw [may]; exact Engine.sample_early notSecond below threshold)
  exact ⟨e, next⟩

/-! ### Detections in RAMPING -/

theorem exec_sample_ramping {det : Detection} (ramping : (s.record k).state = .ramping)
    (detects : ((s.engine k).sample c.level (rampAllowance c.level (s.record k).k) .inrush false code).2 =
      some det) :
    ∃ e : Engine, exec (.currentSample k code) s =
      .next (State.followUp s ((s.measured k code e).detectRamping k det)) := by
  obtain ⟨e, acts⟩ := State.sampleRamping_detects (s := s.sampled k code) detects
  refine ⟨e, ?_⟩
  rw [exec_currentSample mode config, State.treatSample_ramping (s := s.sampled k code) ramping, acts]

theorem exec_hard_ramping_trips (ramping : (s.record k).state = .ramping)
    (second : isHard c.level code = true ∧ 2 ≤ (s.engine k).hardRun + 1)
    (nonReversing : (s.record k).reversing = false) :
    ∃ e : Engine, exec (.currentSample k code) s =
      .next (State.followUp s ((s.measured k code e).tripRamp k .hard)) := by
  obtain ⟨e, next⟩ := exec_sample_ramping mode config ramping (Engine.sample_hard second)
  have trips : (s.measured k code e).detectRamping k .hard = (s.measured k code e).tripRamp k .hard :=
    if_neg fun reversing => absurd (nonReversing.symm.trans reversing) Bool.false_ne_true
  exact ⟨e, trips ▸ next⟩

theorem exec_hard_ramping_contends (ramping : (s.record k).state = .ramping)
    (second : isHard c.level code = true ∧ 2 ≤ (s.engine k).hardRun + 1)
    (reversing : (s.record k).reversing = true) :
    ∃ e : Engine, exec (.currentSample k code) s =
      .next (State.followUp s ((s.measured k code e).enterContend k .ramp)) := by
  obtain ⟨e, next⟩ := exec_sample_ramping mode config ramping (Engine.sample_hard second)
  have contends : (s.measured k code e).detectRamping k .hard = (s.measured k code e).enterContend k .ramp :=
    if_pos reversing
  exact ⟨e, contends ▸ next⟩

/-- INRUSH starts the hold-off ahead of its trip (R55, R152). -/
theorem exec_inrush_trips (ramping : (s.record k).state = .ramping)
    (notSecond : ¬ (isHard c.level code = true ∧ 2 ≤ (s.engine k).hardRun + 1))
    (full : accumulate c.level (rampAllowance c.level (s.record k).k) code (s.engine k).excess =
      tripBound c.level) :
    ∃ e : Engine, exec (.currentSample k code) s =
      .next (State.followUp s ((s.measured k code e).startHoldoff.tripRamp k .inrush)) := by
  obtain ⟨e, next⟩ := exec_sample_ramping mode config ramping (Engine.sample_full notSecond full)
  exact ⟨e, next⟩

end

/-! ### The trip in LIVE -/

theorem State.gate_of_cooling {s : State} {k : District} (h : (s.record k).state = .cooling) :
    s.gate k = false := by
  unfold State.gate DistrictRecord.gate
  rw [h]

theorem State.gate_of_locked {s : State} {k : District} (h : (s.record k).state = .locked) :
    s.gate k = false := by
  unfold State.gate DistrictRecord.gate
  rw [h]

end Sys2Proof.Machine

open Sys2Proof Sys2Proof.Machine

/-- Settles O12: HARD and OVERLOAD come to one trip, which nothing follows where no start is owed. -/
theorem tripInLive : Obligations.TripInLive := by
  intro s k code c mode config owed live l i d hard second full detected fault n
  have trips : ∃ e : Engine, exec (.currentSample k code) s =
      .next (State.followUp s ((s.measured k code e).trip k fault n)) := by
    have counted : (if d.settle.isSome || d.watch == .flip then d.failedCount else 0) = n := by
      simp only [Bool.or_eq_true, beq_iff_eq]
      rfl
    have isSecond : isHard c.level code = true ∧ 2 ≤ (s.engine k).hardRun + 1 ↔ second :=
      and_congr_left' (isHard_iff l code)
    rw [← counted]
    rcases detected with ⟨hardAgain, barred⟩ | ⟨notSecond, above, reached⟩
    · rw [show fault = .hard from if_pos hardAgain]
      exact exec_hard_live_trips mode config live (isSecond.mpr hardAgain) barred
    · rw [show fault = .overload from if_neg notSecond]
      exact exec_overload_trips mode config live (fun h => notSecond (isSecond.mp h)) (accumulate_full above reached)
  obtain ⟨e, next⟩ := trips
  have most : n ≤ 8 := by
    show (if _ then min (d.n + 1) 8 else 0) ≤ 8
    split
    · exact Nat.min_le_right _ _
    · exact Nat.zero_le 8
  let u : State := s.measured k code e
  have notQueued : (u.record k).state ≠ .queued := by
    rw [show (u.record k).state = .live from live]
    decide
  have notContend : (u.record k).state ≠ .contend := by
    rw [show (u.record k).state = .live from live]
    decide
  have failed := State.failsTo_trip (s := u) fault n notQueued notContend
  have state := State.state_trip (s := u) fault notQueued notContend most
  have kept := failed.rampKept (Or.inl live)
  have settled : State.followUp s (u.trip k fault n) = u.trip k fault n := by
    refine State.followUp_of_rampKept owed (State.unmoved_measured s k code e) failed.only kept ?_ ?_
    · rw [live]
      decide
    · rw [state]
      split <;> decide
  rw [settled] at next
  refine ⟨_, next, State.onlyDistrict_trans (State.onlyDistrict_measured s k code e) failed.only, kept, failed.engine,
    failed.relay, ?_, failed.queue, ?_, ?_⟩
  · split at state
    · exact State.gate_of_locked state
    · exact State.gate_of_cooling state
  · intro eight
    refine ⟨?_, ?_⟩
    · rw [failed.alert_of_le most, decide_eq_true eight, Bool.or_true]
    · rw [eight, State.record_trip_locks]
      rfl
  · intro few
    refine ⟨?_, State.record_trip_cools (s := u) fault notQueued notContend few⟩
    rw [failed.alert_of_le most, decide_eq_false (Nat.ne_of_lt few), Bool.or_false]
    rfl

end

section
/-! PROOFS. The ends of a ramp (R54 to R57): a trip and the completion, with the direct start of another district that
may follow in QUIET (R161). -/

namespace Sys2Proof.Machine

/-- A posting stays placed through the direct start of another district: in QUIET, where one starts, the queue takes
nothing and holds nothing (R132, R161). -/
theorem State.places_of_startsOther {k : District} {s m t : State} {p : Post} (ok : s.QueueOk)
    (mode : m.mode = s.mode) (queue : m.queue = s.queueWith p)
    (rbDistrict : m.ramp.rbDistrict = (s.post p).ramp.rbDistrict) (starts : State.StartsOther k m t) :
    s.places p t := by
  refine State.places_of_post ok ?_ fun none => starts.told (rbDistrict.trans none)
  by_cases quiet : s.mode = .quiet
  · have notRun : s.mode ≠ .run := by
      rw [quiet]
      decide
    obtain ⟨_, _, _, _, _, _, empty⟩ := ok
    have kept : s.queueWith p = [] := (if_neg notRun).trans (empty notRun)
    rw [kept, starts.emptyQueue (queue.trans kept)]
  · rw [starts.outsideQuiet (by rwa [mode]), queue]

/-- A ramp that ends takes its own entry alone from the list (R149). -/
theorem State.list_depart_ramping {k : District} {s : State} (ramping : (s.record k).state = .ramping) :
    (s.depart k).ramp.list = s.ramp.list.filter (fun e => !(e.isOwn && e.district == k)) := by
  rw [State.depart_of_ramping ramping, State.list_removeOwnEntry]

theorem State.hasOwnEntry_of_departed {k : District} {s t : State} (ramping : (s.record k).state = .ramping)
    (list : t.ramp.list = (s.depart k).ramp.list) : t.hasOwnEntry k = false := by
  rw [State.depart_of_ramping ramping] at list
  rw [← State.hasOwnEntry_removeOwnEntry k s]
  unfold State.hasOwnEntry
  rw [list]

theorem State.mem_of_departed {k : District} {s : State} (ramping : (s.record k).state = .ramping) {e : RampEntry}
    (he : e ∈ s.ramp.list) (other : ¬ (e.isOwn = true ∧ e.district = k)) : e ∈ (s.depart k).ramp.list := by
  rw [State.list_depart_ramping ramping]
  refine List.mem_filter.mpr ⟨he, ?_⟩
  rw [Bool.not_eq_true', Bool.eq_false_iff, Ne, Bool.and_eq_true, beq_iff_eq]
  exact other

/-! ### The completion -/

@[simp] theorem State.record_completeRamp (k : District) (s : State) :
    (s.completeRamp k).record k = (s.record k).rampComplete := by
  simp [State.completeRamp, State.postRe]

/-- A completed ramp keeps E and the hard-run counter (R28, R54). -/
theorem State.engine_completeRamp (k : District) (s : State) : (s.completeRamp k).engine k = s.engine k := by
  simp [State.completeRamp, State.postRe]

theorem State.relay_completeRamp (k : District) (s : State) : (s.completeRamp k).relay k = s.relay k := by
  simp [State.completeRamp, State.postRe]

theorem State.alert_completeRamp (k : District) (s : State) : (s.completeRamp k).alert = s.alert := by
  unfold State.completeRamp State.postRe
  rw [State.alert_post, State.modRecord_eq, State.alert_setRecord, State.depart_frame]

/-- The completion posts an RE and takes the own entry away (R57, R149). -/
theorem State.completeRamp_posts {k : District} {s : State} (ramping : (s.record k).state = .ramping) :
    (s.completeRamp k).queue = s.queueWith (s.frameFor .re k 0) ∧
      (s.completeRamp k).ramp.list = (s.depart k).ramp.list ∧
      (s.completeRamp k).ramp.rbDistrict = (s.post (s.frameFor .re k 0)).ramp.rbDistrict := by
  let cut : State := (s.depart k).modRecord k DistrictRecord.rampComplete
  have outside : State.sameOutsideDistricts s cut :=
    (State.onlyDistrict_trans (State.onlyDistrict_depart k s) (State.onlyDistrict_modRecord k _ _)).2
  have mode : cut.mode = s.mode := State.mode_of_sameOutside outside
  have queue : cut.queue = s.queue := State.queue_depart (by simp [ramping]) (by simp [ramping])
  have rbDistrict : cut.ramp.rbDistrict = s.ramp.rbDistrict := State.rbDistrict_depart (by simp [ramping])
  have frame : cut.rePost k = s.frameFor .re k 0 :=
    State.frameFor_congr (s := s) (t := cut) (State.config_of_sameOutside outside) .re k 0
  have posts : s.completeRamp k = cut.post (s.frameFor .re k 0) := congrArg (fun p => cut.post p) frame
  rw [posts]
  refine ⟨?_, ?_, ?_⟩
  · rw [State.queue_post, State.queueWith_congr mode queue]
  · rw [State.list_post]
    rfl
  · exact State.rbDistrict_post_congr mode queue rbDistrict _

theorem exec_rampCompletion {k : District} {s : State} (ramping : (s.record k).state = .ramping) :
    exec (.rampCompletion k) s = .next (State.followUp s (s.completeRamp k)) :=
  congrArg Host.Outcome.next (if_pos ramping)

theorem State.rampAdvances_below {k : District} {s : State} (ramping : (s.record k).state = .ramping)
    (below : (s.record k).k < 63) :
    s.rampAdvances k = s.setRecord k { s.record k with k := (s.record k).k + 1, rampSub := 0 } := by
  unfold State.rampAdvances
  rw [if_pos ramping, if_pos (show (s.record k).k + 1 < Config.kEND from Nat.succ_lt_succ below)]
  rfl

theorem State.rampAdvances_last {k : District} {s : State} (ramping : (s.record k).state = .ramping)
    (last : (s.record k).k = 63) : s.rampAdvances k = s.rampCompletes k := by
  unfold State.rampAdvances
  rw [if_pos ramping, if_neg]
  rw [last]
  decide

end Sys2Proof.Machine

open Sys2Proof Sys2Proof.Machine

/-- Settles O28: an advance below 63 moves k alone, the one at 63 is the completion, and the completion is followed at
most by the direct start of another district. -/
theorem rampAdvancesAndCompletes : Obligations.RampAdvancesAndCompletes := by
  intro s k ramping ok
  refine ⟨fun below => ?_, fun last => ?_, ?_⟩
  · exact congrArg Host.Outcome.next (State.rampAdvances_below ramping below)
  · exact congrArg Host.Outcome.next (State.rampAdvances_last ramping last)
  let m : State := s.completeRamp k
  have only := State.onlyDistrict_completeRamp k s
  have notQueued : (m.record k).state ≠ .queued := by
    rw [State.record_completeRamp]
    exact DistrictState.noConfusion
  have starts : State.StartsOther k m (State.followUp s m) :=
    State.startsOther_followUp ⟨rfl, rfl, rfl, rfl, rfl⟩ only (by simp [ramping]) notQueued
  obtain ⟨queue, list, rbDistrict⟩ := State.completeRamp_posts ramping
  have mode : m.mode = s.mode := State.mode_of_sameOutside only.2
  have record := starts.record.trans (State.record_completeRamp k s)
  refine ⟨_, exec_rampCompletion ramping, State.sameOutsideDistricts_trans only.2 starts.outside, ?_, ?_,
    starts.engine.trans (State.engine_completeRamp k s), starts.relay.trans (State.relay_completeRamp k s), record, ?_,
    State.places_of_startsOther ok mode queue rbDistrict starts, starts.alert.trans (State.alert_completeRamp k s)⟩
  · intro notQuiet
    rw [starts.outsideQuiet (by rwa [mode])]
    exact only.1
  · exact State.gate_of_live (by rw [record]; rfl)
  · rw [starts.ownEntry]
    exact State.hasOwnEntry_of_departed ramping list

/-- Settles O13: INRUSH and HARD come to one counted trip, INRUSH behind the start of the hold-off; at most the direct
start of another district follows. -/
theorem tripInRamp : Obligations.TripInRamp := by
  intro s k code c mode config ramping ok l i d leff hard second full detected fault n pardoned
  let holdoff : Option Nat := if fault = .inrush then some 50 else s.ramp.holdoff
  have trips : ∃ e : Engine, exec (.currentSample k code) s = .next (State.followUp s
      (((s.measured k code e).modRamp (fun r => { r with holdoff := holdoff })).trip k fault n)) := by
    have isSecond : isHard c.level code = true ∧ 2 ≤ (s.engine k).hardRun + 1 ↔ second :=
      and_congr_left' (isHard_iff l code)
    rcases detected with ⟨hardAgain, nonReversing⟩ | ⟨notSecond, above, reached⟩
    · have isFault : fault = .hard := if_pos hardAgain
      have kept : holdoff = s.ramp.holdoff := if_neg (by simp [isFault])
      rw [isFault, kept]
      exact exec_hard_ramping_trips mode config ramping (isSecond.mpr hardAgain) nonReversing
    · have isFault : fault = .inrush := if_neg notSecond
      have started : holdoff = some 50 := if_pos isFault
      rw [isFault, started]
      exact exec_inrush_trips mode config ramping (fun h => notSecond (isSecond.mp h)) (accumulate_full above reached)
  obtain ⟨e, next⟩ := trips
  have most : n ≤ 8 := Nat.min_le_right _ _
  let u : State := (s.measured k code e).modRamp (fun r => { r with holdoff := holdoff })
  have inRamp : (u.record k).state = .ramping := ramping
  have notQueued : (u.record k).state ≠ .queued := by simp [inRamp]
  have notContend : (u.record k).state ≠ .contend := by simp [inRamp]
  let m : State := u.trip k fault n
  have failed : State.FailsTo k fault n u m := State.failsTo_trip fault n notQueued notContend
  have state : (m.record k).state = if n = 8 then .locked else .cooling :=
    State.state_trip fault notQueued notContend most
  have ended : (m.record k).state ≠ .queued := by
    rw [state]
    split <;> decide
  have only : State.onlyDistrict k (s.sampled k code) m :=
    State.onlyDistrict_trans (State.onlyDistrict_measured s k code e)
      (State.onlyDistrict_trans (State.onlyDistrict_modRamp k _ _) failed.only)
  have starts : State.StartsOther k m (State.followUp s m) :=
    State.startsOther_followUp (State.unmoved_sampled k code s) only notQueued ended
  have sameMode : m.mode = s.mode := State.mode_of_sameOutside (s := s.sampled k code) only.2
  obtain ⟨list, heldOff, floor, intentAge, rbDistrict⟩ := failed.cut
  have told : m.ramp.rbDistrict = (s.post (s.frameFor .tr k (16 * fault.code + n))).ramp.rbDistrict :=
    rbDistrict.trans (State.rbDistrict_post_congr (s := s) (t := u) rfl rfl rfl _)
  refine ⟨_, next, State.sameOutsideDistricts_trans only.2 starts.outside, ?_, starts.engine.trans failed.engine,
    starts.relay.trans failed.relay, State.places_of_startsOther ok sameMode failed.queue told starts, ?_, ?_,
    starts.holdoff.trans heldOff, starts.floor.trans floor, starts.intentAge.trans intentAge, ?_⟩
  · intro notQuiet
    rw [starts.outsideQuiet (by rwa [sameMode])]
    exact only.1
  · rw [starts.ownEntry]
    exact State.hasOwnEntry_of_departed inRamp list
  · intro x hx other
    refine starts.keeps x ?_
    rw [list]
    exact State.mem_of_departed inRamp hx other
  · obtain ⟨lastFault, count, state, cooling, hold, reversing⟩ :=
      State.outcome_trip (s := u) fault notQueued notContend most
    rw [starts.record]
    exact ⟨lastFault, count, state, cooling, hold, reversing, starts.alert.trans (failed.alert_of_le most)⟩

end

section
/-! PROOFS. The entry to CONTEND (R71, R72): the record, the engine, the relay and the queue that it leaves, outside
QUIET and in it. -/

namespace Sys2Proof.Machine

/-- The first half of the entry to CONTEND: the gate is off, and the RE of a cut ramp is posted (R57, R71). -/
def State.contendCut (k : District) (origin : Origin) (s : State) : State :=
  if (s.record k).state = .ramping then (s.moveOff k (DistrictRecord.toContend origin)).postRe k
  else s.moveOff k (DistrictRecord.toContend origin)

theorem State.enterContend_outside_quiet {k : District} {s : State} (notQuiet : s.mode ≠ .quiet) (origin : Origin) :
    s.enterContend k origin = (s.contendCut k origin).post ((s.contendCut k origin).fiPost k) := if_neg notQuiet

theorem State.enterContend_in_quiet {k : District} {s : State} (quiet : s.mode = .quiet) (origin : Origin) :
    s.enterContend k origin = (s.contendCut k origin).enterSwitching k := if_pos quiet

theorem State.onlyDistrict_contendCut (k : District) (origin : Origin) (s : State) :
    State.onlyDistrict k s (s.contendCut k origin) := by
  have moved := State.onlyDistrict_moveOff k (DistrictRecord.toContend origin) s
  unfold State.contendCut
  split
  · exact State.onlyDistrict_trans moved (State.onlyDistrict_post k _ _)
  · exact moved

@[simp] theorem State.record_contendCut (k : District) (origin : Origin) (s : State) :
    (s.contendCut k origin).record k = (s.record k).toContend origin := by
  unfold State.contendCut State.postRe
  split <;> simp

@[simp] theorem State.engine_contendCut (k : District) (origin : Origin) (s : State) :
    (s.contendCut k origin).engine k = Engine.cleared := by
  unfold State.contendCut State.postRe
  split <;> simp

@[simp] theorem State.relay_contendCut (k : District) (origin : Origin) (s : State) :
    (s.contendCut k origin).relay k = s.relay k := by
  unfold State.contendCut State.postRe
  split <;> simp

theorem State.alert_contendCut (k : District) (origin : Origin) (s : State) :
    (s.contendCut k origin).alert = s.alert := by
  unfold State.contendCut State.postRe
  split
  · rw [State.alert_post, State.alert_moveOff]
  · rw [State.alert_moveOff]

/-- The queue at the first half of the entry: the RE of a cut ramp stands in it. -/
theorem State.queue_contendCut {k : District} {s : State} (notQueued : (s.record k).state ≠ .queued)
    (notContend : (s.record k).state ≠ .contend) (origin : Origin) :
    (s.contendCut k origin).queue =
      if (s.record k).state = .ramping then s.queueWith (s.frameFor .re k 0) else s.queue := by
  let moved : State := s.moveOff k (DistrictRecord.toContend origin)
  have outside := (State.onlyDistrict_moveOff k (DistrictRecord.toContend origin) s).2
  have queue : moved.queue = s.queue := State.queue_depart notQueued notContend
  unfold State.contendCut
  split
  · show (moved.post (moved.frameFor .re k 0)).queue = _
    rw [State.queue_post, State.frameFor_congr (State.config_of_sameOutside outside),
      State.queueWith_congr (State.mode_of_sameOutside outside) queue]
  · exact queue

theorem State.depart_of_contend {k : District} {s : State} (h : (s.record k).state = .contend) :
    s.depart k = s.withdraw .fi k := by
  unfold State.depart
  rw [h]

theorem State.queue_enterSwitching (k : District) (s : State) : (s.enterSwitching k).queue = (s.depart k).queue := by
  rw [State.enterSwitching, State.modRelay_eq, State.queue_setRelay, State.queue_moveOff]

theorem State.ramp_enterSwitching (k : District) (s : State) : (s.enterSwitching k).ramp = (s.depart k).ramp := by
  rw [State.enterSwitching, State.modRelay_eq, State.ramp_setRelay, State.ramp_moveOff]

theorem State.alert_enterSwitching (k : District) (s : State) : (s.enterSwitching k).alert = s.alert :=
  State.alert_moveOff k DistrictRecord.toSwitching s

theorem State.state_contendCut (k : District) (origin : Origin) (s : State) :
    ((s.contendCut k origin).record k).state = .contend := by
  rw [State.record_contendCut]
  rfl

theorem State.record_enterContend (k : District) (origin : Origin) (s : State) :
    (s.enterContend k origin).record k =
      if s.mode = .quiet then ((s.record k).toContend origin).toSwitching else (s.record k).toContend origin := by
  by_cases quiet : s.mode = .quiet
  · rw [if_pos quiet, State.enterContend_in_quiet quiet, State.record_enterSwitching, State.record_contendCut]
  · rw [if_neg quiet, State.enterContend_outside_quiet quiet, State.record_post, State.record_contendCut]

theorem State.engine_enterContend (k : District) (origin : Origin) (s : State) :
    (s.enterContend k origin).engine k = Engine.cleared := by
  by_cases quiet : s.mode = .quiet
  · rw [State.enterContend_in_quiet quiet]
    exact State.engine_moveOff k DistrictRecord.toSwitching _
  · rw [State.enterContend_outside_quiet quiet, State.engine_post, State.engine_contendCut]

theorem State.relay_enterContend (k : District) (origin : Origin) (s : State) :
    (s.enterContend k origin).relay k = if s.mode = .quiet then (s.relay k).switch else s.relay k := by
  by_cases quiet : s.mode = .quiet
  · rw [if_pos quiet, State.enterContend_in_quiet quiet, State.relay_enterSwitching, State.relay_contendCut]
  · rw [if_neg quiet, State.enterContend_outside_quiet quiet, State.relay_post, State.relay_contendCut]

theorem State.alert_enterContend (k : District) (origin : Origin) (s : State) :
    (s.enterContend k origin).alert = s.alert := by
  by_cases quiet : s.mode = .quiet
  · rw [State.enterContend_in_quiet quiet, State.alert_enterSwitching, State.alert_contendCut]
  · rw [State.enterContend_outside_quiet quiet, State.alert_post, State.alert_contendCut]

/-- Outside QUIET the FI is posted, behind the RE of a cut ramp (R57, R71). -/
theorem State.queue_enterContend {k : District} {s : State} (notQuiet : s.mode ≠ .quiet)
    (notQueued : (s.record k).state ≠ .queued) (notContend : (s.record k).state ≠ .contend) (origin : Origin) :
    (s.enterContend k origin).queue =
      if (s.record k).state = .ramping then
        { s with queue := s.queueWith (s.frameFor .re k 0) }.queueWith (s.frameFor .fi k 0)
      else s.queueWith (s.frameFor .fi k 0) := by
  let cut : State := s.contendCut k origin
  have outside := (State.onlyDistrict_contendCut k origin s).2
  have mode : cut.mode = s.mode := State.mode_of_sameOutside outside
  have frame : cut.fiPost k = s.frameFor .fi k 0 :=
    State.frameFor_congr (s := s) (t := cut) (State.config_of_sameOutside outside) .fi k 0
  have queue : cut.queue = _ := State.queue_contendCut notQueued notContend origin
  rw [State.enterContend_outside_quiet notQuiet]
  show (cut.post (cut.fiPost k)).queue = _
  rw [State.queue_post, frame]
  by_cases ramping : (s.record k).state = .ramping
  · rw [if_pos ramping] at queue ⊢
    exact State.queueWith_congr (s := { s with queue := s.queueWith (s.frameFor .re k 0) }) mode queue _
  · rw [if_neg ramping] at queue ⊢
    exact State.queueWith_congr mode queue _

/-- In QUIET an empty queue stays empty through the passage to SWITCHING (R72, R132). -/
theorem State.emptyQueue_enterContend {k : District} {s : State} (quiet : s.mode = .quiet)
    (notQueued : (s.record k).state ≠ .queued) (notContend : (s.record k).state ≠ .contend) (origin : Origin)
    (empty : s.queue = []) : (s.enterContend k origin).queue = [] := by
  have notRun : s.mode ≠ .run := by
    rw [quiet]
    decide
  have cut : (s.contendCut k origin).queue = [] := by
    rw [State.queue_contendCut notQueued notContend, State.queueWith, if_neg notRun, empty, ite_self]
  rw [State.enterContend_in_quiet quiet, State.queue_enterSwitching,
    State.depart_of_contend (State.state_contendCut k origin s), State.withdraw_frame, cut]
  rfl

/-- From a state without a ramp the entry moves the ramp list unit by an overflow of its FI alone. -/
theorem State.rampKept_enterContend {k : District} {s : State}
    (plain : (s.record k).state = .live ∨ (s.record k).state = .probing) (origin : Origin) :
    State.rampKept s (s.enterContend k origin) := by
  have cut : (s.contendCut k origin).ramp = s.ramp := by
    have notRamping : (s.record k).state ≠ .ramping := by
      rcases plain with state | state <;> simp [state]
    unfold State.contendCut
    rw [if_neg notRamping, State.ramp_moveOff, State.depart_of_plain plain]
  unfold State.rampKept
  by_cases quiet : s.mode = .quiet
  · have ramp : (s.enterContend k origin).ramp = s.ramp := by
      rw [State.enterContend_in_quiet quiet, State.ramp_enterSwitching,
        State.depart_of_contend (State.state_contendCut k origin s), State.withdraw_frame, cut]
    rw [ramp]
    exact ⟨rfl, Or.inl rfl⟩
  · rw [State.enterContend_outside_quiet quiet, State.ramp_post, ← cut]
    exact ⟨rfl, State.rbDistrict_post _ _⟩

/-- A district past the entry to CONTEND is in CONTEND, or in QUIET in SWITCHING (R71, R72). -/
theorem State.state_enterContend (k : District) (origin : Origin) (s : State) :
    ((s.enterContend k origin).record k).state = if s.mode = .quiet then .switching else .contend := by
  rw [State.record_enterContend]
  split <;> rfl

/-- The entry to CONTEND writes no fault, counts no failure and keeps the hold and the flags of the contest
(R41, R71). -/
theorem State.kept_enterContend (k : District) (origin : Origin) (s : State) :
    let d := s.record k
    let e := (s.enterContend k origin).record k
    e.n = d.n ∧ e.lastFault = d.lastFault ∧ e.hold = d.hold ∧ e.yielded = d.yielded ∧
      e.probeFlipTried = d.probeFlipTried ∧ e.settle = none ∧ e.watch = .none ∧ e.origin = origin := by
  dsimp only
  rw [State.record_enterContend]
  split <;> exact ⟨rfl, rfl, rfl, rfl, rfl, rfl, rfl, rfl⟩

end Sys2Proof.Machine

open Sys2Proof Sys2Proof.Machine

/-- Settles O14: each changeover cause comes to the entry to CONTEND, which in QUIET goes on to SWITCHING. -/
theorem changeoverCauseContends : Obligations.ChangeoverCauseContends := by
  intro s k code c mode config reversing l i d live leff hard second e cause
  let origin : Origin := if d.state = .live then .live else .ramp
  have contends : ∃ g : Engine, exec (.currentSample k code) s =
      .next (State.followUp s ((s.measured k code g).enterContend k origin)) := by
    have isSecond : isHard c.level code = true ∧ 2 ≤ (s.engine k).hardRun + 1 ↔ second :=
      and_congr_left' (isHard_iff l code)
    rcases cause with ⟨ramping, hardAgain⟩ | ⟨isLive, watch, hardAgain | ⟨notSecond, threshold, below⟩⟩
    · rw [show origin = .ramp from if_neg (by rw [ramping]; decide)]
      exact exec_hard_ramping_contends mode config ramping (isSecond.mpr hardAgain) reversing
    · rw [show origin = .live from if_pos isLive]
      exact exec_hard_live_contends mode config isLive (isSecond.mpr hardAgain) reversing watch
    · have excess : accumulate c.level 0 code (s.engine k).excess = e := by
        have notRamping : d.state ≠ .ramping := by
          rw [show d.state = .live from isLive]
          decide
        have level : leff = l := if_neg notRamping
        show accumulate l 0 code _ = if leff < i then _ else _
        rw [level]
        rfl
      rw [show origin = .live from if_pos isLive]
      exact exec_early_contends mode config isLive (fun h => notSecond (isSecond.mp h)) (excess ▸ below)
        (excess ▸ threshold) reversing watch
  obtain ⟨g, next⟩ := contends
  have state : d.state = .live ∨ d.state = .ramping := cause.symm.imp (fun h => h.1) (fun h => h.1)
  let u : State := s.measured k code g
  have notQueued : (u.record k).state ≠ .queued := by
    show d.state ≠ .queued
    rcases state with h | h <;> simp [h]
  have notContend : (u.record k).state ≠ .contend := by
    show d.state ≠ .contend
    rcases state with h | h <;> simp [h]
  let m : State := u.enterContend k origin
  have only : State.onlyDistrict k (s.sampled k code) m :=
    State.onlyDistrict_trans (State.onlyDistrict_measured s k code g) (State.onlyDistrict_enterContend k origin u)
  have entered : (m.record k).state = if s.mode = .quiet then .switching else .contend :=
    State.state_enterContend k origin u
  have left : (m.record k).state ≠ .queued := by
    rw [entered]
    split <;> decide
  have starts : State.StartsOther k m (State.followUp s m) :=
    State.startsOther_followUp (State.unmoved_sampled k code s) only notQueued left
  have outside := State.sameOutsideDistricts_trans only.2 starts.outside
  have sameMode : m.mode = s.mode := State.mode_of_sameOutside (s := s.sampled k code) only.2
  obtain ⟨count, lastFault, hold, yielded, _, settle, watch, isOrigin⟩ := State.kept_enterContend k origin u
  refine ⟨_, next, starts.engine.trans (State.engine_enterContend k origin u), ?_⟩
  rw [starts.record, starts.relay, starts.alert]
  refine ⟨count, lastFault, hold, yielded, settle, watch, isOrigin, State.alert_enterContend k origin u,
    State.halt_of_sameOutside (s := s.sampled k code) outside,
    State.mode_of_sameOutside (s := s.sampled k code) outside, ?_, ?_⟩
  · intro notQuiet
    rw [starts.outsideQuiet (by rwa [sameMode])]
    have record : m.record k = (u.record k).toContend origin :=
      (State.record_enterContend k origin u).trans (if_neg notQuiet)
    rw [record]
    exact ⟨only.1, rfl, rfl, (State.relay_enterContend k origin u).trans (if_neg notQuiet),
      State.queue_enterContend (s := u) notQuiet notQueued notContend origin⟩
  · intro quiet
    have record : m.record k = ((u.record k).toContend origin).toSwitching :=
      (State.record_enterContend k origin u).trans (if_pos quiet)
    rw [record]
    exact ⟨rfl, rfl,
      fun empty => starts.emptyQueue (State.emptyQueue_enterContend (s := u) quiet notQueued notContend origin empty),
      (State.relay_enterContend k origin u).trans (if_pos quiet)⟩

end

section
/-! PROOFS. A probe (R32 to R34, R50 to R52, R84) and the renewed choice behind its verdict CLEAR (R155, R156). -/

namespace Sys2Proof.Machine

/-! ### The samples of a probe -/

theorem Probe.sample_first {l : Nat} {c : Code} {p : Probe} (first : p.taken = 0) :
    p.sample l c = .goesOn { taken := 1, sum := p.sum } := if_pos first

theorem Probe.sample_counted {l : Nat} {c : Code} {p : Probe} (notHard : ¬ isHard l c = true)
    (counted : p.taken = 1 ∨ p.taken = 2) :
    p.sample l c = .goesOn { taken := p.taken + 1, sum := p.sum + 10 * c.toNat } := by
  unfold Probe.sample
  rw [if_neg (by omega), if_neg notHard]
  exact if_neg (show ¬ 4 ≤ p.taken + 1 by omega)

theorem Probe.sample_last {l : Nat} {c : Code} {p : Probe} (notHard : ¬ isHard l c = true) (last : p.taken = 3) :
    p.sample l c = .ends (if l ≤ (p.sum + 10 * c.toNat) / 3 then .short else .clear) := by
  unfold Probe.sample
  rw [if_neg (by omega), if_neg notHard]
  dsimp only
  rw [if_pos (show Config.NPROBE ≤ p.taken + 1 from Nat.succ_le_succ last.ge), apply_ite ProbeStep.ends]
  rfl

theorem Probe.sample_short {l : Nat} {c : Code} {p : Probe} (later : 1 ≤ p.taken)
    (short : isHard l c = true ∨ p.taken = 3 ∧ l ≤ (p.sum + 10 * c.toNat) / 3) :
    p.sample l c = .ends .short := by
  by_cases hard : isHard l c = true
  · unfold Probe.sample
    rw [if_neg (by omega), if_pos hard]
  · obtain ⟨last, mean⟩ := short.resolve_left hard
    rw [Probe.sample_last hard last, if_pos mean]

theorem State.sampleProbe_goesOn {k : District} {s : State} {l : Nat} {c : Code} {p q : Probe}
    (probe : (s.engine k).probe = some p) (goesOn : p.sample l c = .goesOn q) :
    s.sampleProbe k l c = s.setEngine k { s.engine k with probe := some q } := by
  unfold State.sampleProbe
  rw [probe]
  dsimp only
  rw [goesOn]

theorem State.sampleProbe_ends {k : District} {s : State} {l : Nat} {c : Code} {p : Probe} {v : Verdict}
    (probe : (s.engine k).probe = some p) (ends : p.sample l c = .ends v) :
    s.sampleProbe k l c = s.probeVerdict k v := by
  unfold State.sampleProbe
  rw [probe]
  dsimp only
  rw [ends]

theorem exec_currentSample_pulse {k : District} {code : Code} {s : State} {c : StationConfig}
    (mode : s.mode ≠ .straps) (config : s.config = some c) (probing : (s.record k).state = .probing)
    (pulse : (s.record k).phase = .pulse) :
    exec (.currentSample k code) s =
      .next (State.followUp s ((s.sampled k code).sampleProbe k c.level code)) := by
  rw [exec_currentSample mode config, State.treatSample_pulse (s := s.sampled k code) probing pulse]

/-! ### The renewed choice -/

/-- Behind the longest waiting district no later one takes the choice (R155). -/
theorem foldl_longerWait_keeps {s : State} {j : District} {l : List District}
    (longest : ∀ i ∈ l, (s.record i).w ≤ (s.record j).w) : l.foldl (longerWait s) (some j) = some j := by
  induction l with
  | nil => rfl
  | cons x rest ih =>
    have stays : longerWait s (some j) x = some j := if_neg (Nat.not_lt.mpr (longest x List.mem_cons_self))
    rw [List.foldl_cons, stays]
    exact ih fun i hi => longest i (List.mem_cons_of_mem x hi)

/-- In number order the first of the longest waiting districts is found (R155). -/
theorem foldl_longerWait {s : State} {j : District} {l : List District} (order : l.Pairwise (· < ·)) (mem : j ∈ l)
    (longest : ∀ i ∈ l, (s.record i).w < (s.record j).w ∨ (s.record i).w = (s.record j).w ∧ j ≤ i)
    {best : Option District} (behind : ∀ b, best = some b → (s.record b).w < (s.record j).w) :
    l.foldl (longerWait s) best = some j := by
  induction l generalizing best with
  | nil => cases mem
  | cons x rest ih =>
    obtain ⟨ahead, order⟩ := List.pairwise_cons.mp order
    rw [List.foldl_cons]
    by_cases found : x = j
    · subst found
      have taken : longerWait s best x = some x := by
        unfold longerWait
        split
        · rfl
        · rename_i b
          exact if_pos (behind b rfl)
      rw [taken]
      refine foldl_longerWait_keeps fun i hi => ?_
      have := longest i (List.mem_cons_of_mem x hi)
      omega
    · have mem : j ∈ rest := (List.mem_cons.mp mem).resolve_left (Ne.symm found)
      have below : (s.record x).w < (s.record j).w := by
        refine (longest x List.mem_cons_self).resolve_right fun ⟨_, after⟩ => ?_
        exact absurd (ahead j mem) (not_lt.mpr after)
      refine ih order mem (fun i hi => longest i (List.mem_cons_of_mem x hi)) fun b hb => ?_
      unfold longerWait at hb
      split at hb
      · cases hb
        exact below
      · split at hb
        · cases hb
          exact below
        · cases hb
          exact behind b rfl

theorem State.mem_queuedDistricts {s : State} {k : District} :
    k ∈ s.queuedDistricts ↔ (s.record k).state = .queued := by
  unfold State.queuedDistricts allDistricts
  rw [List.mem_filter, beq_iff_eq]
  exact and_iff_right (by fin_cases k <;> decide)

theorem State.longestQueued_of_waitsLongest {s : State} {j : District} (longest : s.waitsLongest j) :
    s.longestQueued = some j := by
  have order : s.queuedDistricts.Pairwise (· < ·) := List.Pairwise.filter _ (by decide)
  exact foldl_longerWait order (State.mem_queuedDistricts.mpr longest.1)
    (fun i hi => longest.2 i (State.mem_queuedDistricts.mp hi)) (fun _ none => nomatch none)

/-- Below WMAX the choice is the district with the largest w, whatever was chosen before (R155). -/
theorem State.choice_of_waitsLongest {s : State} {j : District} (longest : s.waitsLongest j)
    (below : (s.record j).w < Config.WMAX) : s.choice = some j := by
  have found := State.longestQueued_of_waitsLongest longest
  unfold State.choice
  split
  · rename_i c _
    rw [if_neg]
    · exact found
    · rintro ⟨queued, full⟩
      have := longest.2 c queued
      omega
  · exact found

/-- A queue with room takes the posted frame, for every entry that it replaces, and sheds nothing (R132, R133). -/
theorem postInto_room {p : Post} {q : List Entry} (room : q.length < Config.NQUEUE) :
    ∃ (e : Entry) (rest : List Entry), postInto p q = { queue := insertByRank e rest, rbLost := false } ∧
      e.frame = p ∧ ∀ x ∈ rest, p.replaces x.frame = false := by
  unfold postInto
  split
  · rename_i e _
    refine ⟨_, _, rfl, rfl, fun x hx => ?_⟩
    simpa using (List.mem_filter.mp hx).2
  · rename_i none
    rw [if_pos room]
    refine ⟨_, _, rfl, rfl, fun x hx => ?_⟩
    simpa using List.find?_eq_none.mp none x hx

theorem State.post_room {p : Post} {s : State} (run : s.mode = .run) (room : s.queue.length < Config.NQUEUE) :
    ∃ (e : Entry) (rest : List Entry), s.post p = { s with queue := insertByRank e rest } ∧
      e.frame = p ∧ ∀ x ∈ rest, p.replaces x.frame = false := by
  obtain ⟨e, rest, posted, frame, others⟩ := postInto_room (p := p) room
  refine ⟨e, rest, ?_, frame, others⟩
  unfold State.post
  rw [if_pos run, posted]
  rfl

/-- Where no other RB is left, the one just added is the only one (R132). -/
theorem length_filter_rb_insertByRank {p : Post} {e : Entry} {rest : List Entry} (rb : p.kind = .rb)
    (frame : e.frame = p) (others : ∀ x ∈ rest, p.replaces x.frame = false) :
    ((insertByRank e rest).filter (fun x => x.frame.kind == .rb)).length = 1 := by
  have none : rest.filter (fun x => x.frame.kind == .rb) = [] := by
    refine List.filter_eq_nil_iff.mpr fun x hx isRb => ?_
    have replaced := (Post.replaces_iff p x).mpr ⟨(beq_iff_eq.mp isRb).trans rb.symm, Or.inr rb⟩
    rw [others x hx] at replaced
    cases replaced
  rw [((perm_insertByRank e rest).filter _).length_eq, List.filter_cons_of_pos (by rw [frame, rb]; rfl), none]
  rfl

theorem State.chooseAgain_of_offered {s : State} {j : District} (run : s.mode = .run) (chosen : s.choice = some j)
    (offered : s.ramp.rbDistrict = some j) :
    s.chooseAgain = s.modRamp (fun r => { r with chosen := some j }) := by
  unfold State.chooseAgain
  rw [if_pos run, chosen]
  exact if_pos offered

theorem State.chooseAgain_posts {s : State} {j : District} (run : s.mode = .run) (chosen : s.choice = some j)
    (other : s.ramp.rbDistrict ≠ some j) :
    s.chooseAgain =
      (s.modRamp (fun r => { r with chosen := some j, rbDistrict := some j })).post (s.rbPost j) := by
  unfold State.chooseAgain
  rw [if_pos run, chosen]
  exact if_neg other

/-- The choice made again finds its district offered already, or posts the one RB of the station for it (R155,
R156). -/
theorem State.chooseAgain_offers {s : State} {j : District} (run : s.mode = .run) (chosen : s.choice = some j)
    (room : s.queue.length < Config.NQUEUE) :
    s.chooseAgain.ramp.chosen = some j ∧ s.chooseAgain.ramp.rbDistrict = some j ∧
      (s.ramp.rbDistrict = some j → s.chooseAgain.queue = s.queue) ∧
      (s.ramp.rbDistrict ≠ some j → s.chooseAgain.offersRamp j) := by
  by_cases offered : s.ramp.rbDistrict = some j
  · rw [State.chooseAgain_of_offered run chosen offered]
    exact ⟨rfl, offered, fun _ => rfl, fun other => absurd offered other⟩
  · obtain ⟨e, rest, posted, frame, others⟩ := State.post_room (p := s.rbPost j)
      (s := s.modRamp (fun r => { r with chosen := some j, rbDistrict := some j })) run room
    rw [State.chooseAgain_posts run chosen offered, posted]
    exact ⟨rfl, rfl, fun same => absurd same offered, fun _ =>
      ⟨rfl, rfl, length_filter_rb_insertByRank rfl frame others, e, (mem_insertByRank e e rest).mpr (Or.inl rfl),
        frame⟩⟩

/-! ### The verdicts -/

/-- The record after a counted failure that is no trip (R44, R47, R51, R58). -/
theorem State.outcome_failWith {k : District} (fault : FaultKind) (window : Bool) (s : State) {n : Nat} (most : n ≤ 8) :
    let e := (s.failWith k fault n window).record k
    e.state = (if n = 8 then .locked else .cooling) ∧ e.n = n ∧ e.lastFault = fault ∧
      (n < 8 → e.cooling = Config.tCOOL n) ∧ e.probeFlipTried = false := by
  dsimp only
  rw [State.record_failWith]
  rcases Nat.lt_or_eq_of_le most with few | rfl
  · rw [if_neg (show ¬ Config.NLOCK ≤ n from Nat.not_le.mpr few), if_neg (Nat.ne_of_lt few)]
    exact ⟨rfl, rfl, rfl, fun _ => rfl, rfl⟩
  · exact ⟨rfl, rfl, rfl, fun few => absurd few (Nat.lt_irrefl 8), rfl⟩

/-- An engine that is cleared stays so through what follows a command (R36, R161). -/
theorem State.engine_followUp_cleared (before : State) {s : State} {k : District}
    (cleared : s.engine k = Engine.cleared) : (State.followUp before s).engine k = Engine.cleared := by
  have starts (u : State) (h : u.engine k = Engine.cleared) : u.directStart.engine k = Engine.cleared := by
    unfold State.directStart
    split
    · split
      · rename_i j _
        by_cases same : k = j
        · subst same
          exact State.engine_moveOff k DistrictRecord.toRamping u
        · rw [((State.onlyDistrict_startRamp j u).1 k same).2.1, h]
      · exact h
    · exact h
  unfold State.followUp
  dsimp only
  split
  · exact starts s cleared
  · refine starts _ ?_
    rw [State.chooseAgain_frame]
    exact cleared

/-- A district that newly waits in QUEUED makes the unit choose again (R155). -/
theorem State.followUp_of_enteredQueued {before s : State} {k : District} (was : (before.record k).state ≠ .queued)
    (waits : (s.record k).state = .queued) : State.followUp before s = s.chooseAgain.directStart := by
  have changed : before.queuedDistricts ≠ s.queuedDistricts := by
    intro same
    have waits := State.mem_queuedDistricts.mpr waits
    rw [← same] at waits
    exact was (State.mem_queuedDistricts.mp waits)
  unfold State.followUp
  dsimp only
  rw [if_neg changed]

theorem State.onlyDistrict_chooseAgain (k : District) (s : State) : State.onlyDistrict k s s.chooseAgain := by
  rw [State.chooseAgain_frame]
  exact ⟨fun _ _ => ⟨rfl, rfl, rfl⟩, rfl⟩

theorem State.waitsLongest_chooseAgain {s : State} {j : District} :
    s.chooseAgain.waitsLongest j ↔ s.waitsLongest j := by
  simp only [State.waitsLongest, State.record_chooseAgain]

/-- The entry to QUEUED and what follows it: the district waits with w 0, or in QUIET has started its ramp in the same
step (R51, R52, R161). -/
theorem State.outcome_enterQueued (before : State) (k : District) (s : State) :
    let d := s.record k
    let e := (State.followUp before (s.enterQueued k)).record k
    e.w = 0 ∧ e.probeFlipTried = false ∧ (e.state = .queued ∨ s.mode = .quiet ∧ e.state = .ramping) ∧
      e.n = d.n ∧ e.lastFault = d.lastFault := by
  have queued : (s.enterQueued k).record k = (s.record k).toQueued := State.record_moveOff k _ s
  have mode : (s.enterQueued k).mode = s.mode := State.mode_of_sameOutside (State.onlyDistrict_enterQueued k s).2
  dsimp only
  rcases State.record_followUp before (s.enterQueued k) k with waits | ⟨quiet, _, starts⟩
  · rw [waits, queued]
    exact ⟨rfl, rfl, Or.inl rfl, rfl, rfl⟩
  · rw [starts, queued]
    exact ⟨rfl, rfl, Or.inr ⟨mode.symm.trans quiet, rfl⟩, rfl, rfl⟩

/-- Outside QUIET a district that newly waits makes the unit choose again, and no more (R155). -/
theorem State.followUp_enterQueued {before s : State} {k : District} (was : (before.record k).state ≠ .queued)
    (notQuiet : s.mode ≠ .quiet) :
    State.followUp before (s.enterQueued k) = (s.enterQueued k).chooseAgain := by
  have waits : ((s.enterQueued k).record k).state = .queued := by
    rw [State.enterQueued, State.record_moveOff]
    rfl
  have outside := State.sameOutsideDistricts_trans (State.onlyDistrict_enterQueued k s).2
    (State.sameOutside_chooseAgain (s.enterQueued k))
  rw [State.followUp_of_enteredQueued was waits, State.directStart_outside_quiet]
  rwa [State.mode_of_sameOutside outside]

/-- From a probe the entry to QUEUED leaves the queue and the ramp list unit. -/
theorem State.enterQueued_of_probing {k : District} {s : State} (probing : (s.record k).state = .probing) :
    (s.enterQueued k).queue = s.queue ∧ (s.enterQueued k).ramp = s.ramp := by
  rw [State.enterQueued, State.queue_moveOff, State.ramp_moveOff, State.depart_of_plain (Or.inr probing)]
  exact ⟨rfl, rfl⟩

theorem State.probeVerdict_short_contends {k : District} {s : State} (reversing : (s.record k).reversing = true)
    (untried : (s.record k).probeFlipTried = false) :
    s.probeVerdict k .short =
      (s.setRecord k { s.record k with probeFlipTried := true }).enterContend k .probe :=
  if_pos ⟨reversing, untried⟩

theorem State.probeVerdict_short_fails {k : District} {s : State}
    (barred : (s.record k).reversing = false ∨ (s.record k).probeFlipTried = true) :
    s.probeVerdict k .short = s.failWith k .probe (s.record k).failedCount false := by
  refine if_neg ?_
  rintro ⟨reversing, untried⟩
  rcases barred with h | h
  · rw [h] at reversing
    cases reversing
  · rw [h] at untried
    cases untried

end Sys2Proof.Machine

open Sys2Proof Sys2Proof.Machine

/-- Settles O15: sample by sample, and by the verdicts: CLEAR enters QUEUED and the unit chooses again, SHORT enters
CONTEND or is a counted failure. -/
theorem probeSamples : Obligations.ProbeSamples := by
  intro s k code c p mode config owed probing pulse probe few l i d hard short clear n
  have next := exec_currentSample_pulse (code := code) mode config probing pulse
  let u : State := s.sampled k code
  have settled (e : Engine) : State.followUp s (u.setEngine k e) = u.setEngine k e :=
    State.followUp_unmoved ⟨rfl, rfl, rfl, rfl, rfl⟩ owed
  have goesOn {q : Probe} (h : p.sample l code = .goesOn q) :
      exec (.currentSample k code) s = .next (u.setEngine k { s.engine k with probe := some q }) := by
    rw [next, State.sampleProbe_goesOn (s := u) (l := c.level) probe h]
    exact congrArg Host.Outcome.next (settled _)
  have ends {v : Verdict} (h : p.sample l code = .ends v) :
      exec (.currentSample k code) s = .next (State.followUp s (u.probeVerdict k v)) := by
    rw [next, State.sampleProbe_ends (s := u) (l := c.level) probe h]
  have isHard : isHard l code = true ↔ hard := isHard_iff l code
  have notQueued : (u.record k).state ≠ .queued := by
    rw [show (u.record k).state = .probing from probing]
    decide
  refine ⟨fun first => goesOn (Probe.sample_first first),
    fun notHard counted => goesOn (Probe.sample_counted (fun h => notHard (isHard.mp h)) counted), ?_, ?_, ?_⟩
  · rintro ⟨last, notHard, mean⟩
    have verdict : p.sample l code = .ends .clear := by
      rw [Probe.sample_last (fun h => notHard (isHard.mp h)) last, if_neg (Nat.not_le.mpr mean)]
    have next := ends verdict
    let m : State := u.enterQueued k
    have only : State.onlyDistrict k u m := State.onlyDistrict_enterQueued k u
    have sameMode : m.mode = s.mode := State.mode_of_sameOutside (s := u) only.2
    obtain ⟨queue, ramp⟩ := State.enterQueued_of_probing (s := u) (k := k) probing
    have outside := State.sameOutsideDistricts_trans only.2 (State.sameOutside_followUp s m)
    have chooses (notQuiet : s.mode ≠ .quiet) : State.followUp s m = m.chooseAgain :=
      State.followUp_enterQueued notQueued notQuiet
    obtain ⟨w, tried, state, count, lastFault⟩ := State.outcome_enterQueued s k u
    refine ⟨_, next, w, tried, state, count, lastFault, fun notQuiet => ?_,
      State.engine_followUp_cleared s (State.engine_moveOff k DistrictRecord.toQueued u),
      (State.alert_followUp s m).trans (State.alert_moveOff k _ u), State.halt_of_sameOutside (s := u) outside,
      fun run _ room j longest below => ?_⟩
    · show State.othersKept k u (State.followUp s m)
      rw [chooses notQuiet]
      exact (State.onlyDistrict_trans only (State.onlyDistrict_chooseAgain k m)).1
    · have chooses := chooses (by rw [run]; decide)
      change (State.followUp s m).waitsLongest j at longest
      change ((State.followUp s m).record j).w < Config.WMAX at below
      rw [chooses] at longest below
      rw [State.record_chooseAgain] at below
      have offers := State.chooseAgain_offers (s := m) (sameMode.trans run)
        (State.choice_of_waitsLongest (State.waitsLongest_chooseAgain.mp longest) below) (by rw [queue]; exact room)
      rw [ramp, queue, ← chooses] at offers
      exact offers
  · rintro ⟨later, isShort⟩ reversing untried
    have verdict := Probe.sample_short later (isShort.imp_left isHard.mpr)
    have next := ends verdict
    rw [State.probeVerdict_short_contends (s := u) reversing untried] at next
    let v : State := u.setRecord k { u.record k with probeFlipTried := true }
    let m : State := v.enterContend k .probe
    have probing' : (v.record k).state = .probing := by
      rw [State.record_setRecord_self]
      exact probing
    have only : State.onlyDistrict k u m :=
      State.onlyDistrict_trans (State.onlyDistrict_setRecord k _ u) (State.onlyDistrict_enterContend k _ v)
    have state : (m.record k).state = if s.mode = .quiet then .switching else .contend :=
      State.state_enterContend k .probe v
    have follows : State.followUp s m = m := by
      refine State.followUp_of_rampKept owed (State.unmoved_sampled k code s) only
        (State.rampKept_enterContend (Or.inr probing') .probe) ?_ ?_
      · rw [probing]
        decide
      · rw [state]
        split <;> decide
    rw [follows] at next
    obtain ⟨count, lastFault, _, _, tried, _, _, origin⟩ := State.kept_enterContend k .probe v
    rw [State.record_setRecord_self] at count lastFault tried
    refine ⟨_, next, state, origin, tried, count, lastFault, State.engine_enterContend k .probe v, fun notQuiet => ?_,
      only.1, State.alert_enterContend k .probe v⟩
    have queue := State.queue_enterContend (s := v) (k := k) notQuiet (by simp [probing']) (by simp [probing']) .probe
    exact queue.trans (if_neg (by simp [probing']))
  · rintro ⟨later, isShort⟩ barred
    have verdict := Probe.sample_short later (isShort.imp_left isHard.mpr)
    have next := ends verdict
    rw [State.probeVerdict_short_fails (s := u) barred] at next
    have notContend : (u.record k).state ≠ .contend := by
      rw [show (u.record k).state = .probing from probing]
      decide
    let m : State := u.failWith k .probe n false
    have failed : State.FailsTo k .probe n u m := State.failsTo_failWith .probe n false notQueued notContend
    have most : n ≤ 8 := Nat.min_le_right _ _
    obtain ⟨state, count, lastFault, cooling, tried⟩ := State.outcome_failWith (k := k) .probe false u most
    have follows : State.followUp s m = m := by
      refine State.followUp_of_rampKept owed (State.unmoved_sampled k code s) failed.only
        (failed.rampKept (Or.inr probing)) ?_ ?_
      · rw [probing]
        decide
      · rw [show (m.record k).state = _ from state]
        split <;> decide
    refine ⟨m, next.trans (congrArg Host.Outcome.next follows), state, count, lastFault, cooling, tried, failed.engine,
      failed.queue, failed.only.1, failed.alert_of_le most⟩

end

section
/-! PROOFS. The record of a district after each move of its recovery (R59, R61 to R64, R74, R80, R168): one equation per
move, from the record before it and the relay. -/

namespace Sys2Proof.Machine

theorem State.record_modRecord_self (k : District) (f : DistrictRecord → DistrictRecord) (s : State) :
    (s.modRecord k f).record k = f (s.record k) := State.record_setRecord_self s k _

/-- The record of a district that a record of a probing kind becomes: PROBING, or LOCKED where the relay disagrees
(R49, R85). -/
def DistrictRecord.probesOrLocks (disagrees : Bool) (d : DistrictRecord) : DistrictRecord :=
  if disagrees = true then { d.toProbing with lastFault := .relay }.toLocked else d.toProbing

theorem State.record_enterProbing_eq (k : District) (s : State) :
    (s.enterProbing k).record k = (s.record k).probesOrLocks (s.relayDisagrees k) := State.record_enterProbing k s

theorem State.relayDisagrees_modRecord (f : DistrictRecord → DistrictRecord) (k : District) (s : State)
    (reversing : ∀ d, (f d).reversing = d.reversing := by exact fun _ => rfl) :
    (s.modRecord k f).relayDisagrees k = s.relayDisagrees k := by
  refine State.relayDisagrees_congr ?_ rfl
  rw [State.record_modRecord_self]
  exact reversing _

/-- The entry to PROBING of a record changed first in what the relay's check does not read (R85). -/
theorem State.record_enterProbing_modRecord (f : DistrictRecord → DistrictRecord) (k : District) (s : State)
    (reversing : ∀ d, (f d).reversing = d.reversing := by exact fun _ => rfl) :
    ((s.modRecord k f).enterProbing k).record k = (f (s.record k)).probesOrLocks (s.relayDisagrees k) := by
  rw [State.record_enterProbing_eq, State.relayDisagrees_modRecord f k s reversing, State.record_modRecord_self]

theorem State.record_enterDark (k : District) (s : State) : (s.enterDark k).record k = (s.record k).toDark :=
  State.record_moveOff k _ s

/-- The record after the exit by origin (R74, R80). -/
def State.recordAfterExit (watch : WatchKind) (s : State) (k : District) : DistrictRecord :=
  match (s.record k).origin with
  | .live => (s.record k).toLive watch
  | .ramp => (s.record k).toQueued
  | .probe => (s.record k).probesOrLocks (s.relayDisagrees k)

theorem State.record_exitByOrigin (k : District) (watch : WatchKind) (s : State) :
    (s.exitByOrigin k watch).record k = s.recordAfterExit watch k := by
  unfold State.exitByOrigin State.recordAfterExit
  cases (s.record k).origin with
  | live => exact State.record_moveOff k _ s
  | ramp => exact State.record_moveOff k _ s
  | probe => exact State.record_enterProbing_eq k s

/-- The record after a release (R59). -/
def State.recordAfterRelease (s : State) (k : District) : DistrictRecord :=
  let d := s.record k
  if d.state = .locked then
    if d.hold = true then { d with n := 0 }.toDark else { d with n := 0 }.probesOrLocks (s.relayDisagrees k)
  else if d.state = .halted ∧ d.confirmPending = false ∧ d.returnClass = .locked then
    { d with n := 0, returnClass := if d.hold then .dark else .probe }
  else d

theorem State.record_release (k : District) (s : State) : (s.release k).record k = s.recordAfterRelease k := by
  unfold State.release State.recordAfterRelease
  dsimp only
  split
  · split
    · rw [State.record_enterDark, State.record_modRecord_self]
    · exact State.record_enterProbing_modRecord _ k s
  · split
    · exact State.record_modRecord_self k _ s
    · rfl

/-- The record of a district whose hold is set (R61 to R63). -/
def DistrictRecord.held (d : DistrictRecord) : DistrictRecord :=
  match d.state with
  | .halted => { d with hold := true, n := 0, returnClass := if d.confirmPending then d.returnClass else .dark }
  | .switching => { d with hold := true }
  | .dark => { d with hold := true, n := 0 }
  | .cooling => { d with hold := true, n := 0, pardoned := false }.toDark
  | .live | .ramping | .probing | .queued | .contend | .locked => { d with hold := true, n := 0 }.toDark

theorem State.record_holdSet (k : District) (s : State) : (s.holdSet k).record k = (s.record k).held := by
  have dark (f : DistrictRecord → DistrictRecord) :
      ((s.modRecord k f).enterDark k).record k = (f (s.record k)).toDark := by
    rw [State.record_enterDark, State.record_modRecord_self]
  unfold State.holdSet DistrictRecord.held
  dsimp only
  cases state : (s.record k).state with
  | halted | switching | dark => simp only [State.record_modRecord_self, state]
  | ramping => exact (State.record_post _ _ k).trans (dark _)
  | live | cooling | probing | queued | contend | locked => exact dark _

/-- The record of a district whose hold is cleared (R64). -/
def State.recordAfterHoldClear (s : State) (k : District) : DistrictRecord :=
  let d := s.record k
  if d.hold = true then
    if d.state = .dark then { d with hold := false, n := 0 }.probesOrLocks (s.relayDisagrees k)
    else if d.state = .halted ∧ d.confirmPending = false ∧ d.returnClass = .dark then
      { d with hold := false, returnClass := .probe }
    else { d with hold := false }
  else d

theorem State.record_holdClear (k : District) (s : State) : (s.holdClear k).record k = s.recordAfterHoldClear k := by
  have cleared : (s.modRecord k (fun d => { d with hold := false })).record k = { s.record k with hold := false } :=
    State.record_modRecord_self k _ s
  have same : (s.modRecord k (fun d => { d with hold := false })).relayDisagrees k = s.relayDisagrees k :=
    State.relayDisagrees_modRecord _ k s
  unfold State.holdClear State.recordAfterHoldClear
  dsimp only
  split
  · split
    · refine (State.record_enterProbing_modRecord _ k _).trans ?_
      rw [same, cleared]
    · split
      · rw [State.record_modRecord_self, cleared]
      · exact cleared
  · rfl

/-- The record of a confirm-pending district that is given its return class (R168, R171). -/
def DistrictRecord.settled (cls : ReturnClass) (d : DistrictRecord) : DistrictRecord :=
  { d with confirmPending := false, returnClass := cls }

theorem State.settlePending_halted {s : State} (halted : s.halted = true) (k : District) (cls : ReturnClass) :
    s.settlePending k cls = s.modRecord k (DistrictRecord.settled cls) := if_pos halted

theorem State.settlePending_running {s : State} (running : s.halted = false) (k : District) (cls : ReturnClass) :
    s.settlePending k cls = (s.modRecord k (DistrictRecord.settled cls)).leaveHalted k :=
  if_neg (Bool.eq_false_iff.mp running)

end Sys2Proof.Machine
end

section
/-! PROOFS. The count and the hold (R44, 03 3.11): what each move makes of the record of its own district, where NLOCK
and a hold may stand in few states alone. -/

namespace Sys2Proof.Machine

/-! ### A legal record -/

/-- The count and the hold of a record are legal. -/
abbrev DistrictRecord.Ok (d : DistrictRecord) : Prop := d.CountOk ∧ d.HoldOk

/-- The count is below NLOCK and no hold is set: what the states in which a district is served ask for. -/
abbrev DistrictRecord.Free (d : DistrictRecord) : Prop := d.n < Config.NLOCK ∧ d.hold = false

/-- The states in which neither NLOCK nor a hold may stand. -/
def DistrictState.serves (st : DistrictState) : Bool :=
  match st with
  | .live | .cooling | .probing | .queued | .ramping | .contend => true
  | .halted | .dark | .switching | .locked => false

theorem DistrictRecord.free_of_ok {d : DistrictRecord} (ok : d.Ok) (serves : d.state.serves = true) : d.Free := by
  obtain ⟨⟨most, locks⟩, _, _, holds, _⟩ := ok
  have few : d.n ≠ Config.NLOCK := by
    intro full
    rcases locks full with h | ⟨h, _⟩ <;> rw [h] at serves <;> cases serves
  refine ⟨Nat.lt_of_le_of_ne most few, Bool.eq_false_iff.mpr fun hold => ?_⟩
  rcases holds hold with h | h | h | h <;> rw [h] at serves <;> cases serves

theorem DistrictRecord.ok_of_free {d : DistrictRecord} (free : d.Free) (serves : d.state.serves = true) : d.Ok := by
  obtain ⟨few, unheld⟩ := free
  refine ⟨⟨few.le, fun full => absurd full few.ne⟩, fun dark => ?_, fun halted => ?_, fun hold => ?_, fun hold => ?_⟩
  · rw [dark] at serves
    cases serves
  · rw [halted] at serves
    cases serves
  · exact absurd (hold.symm.trans unheld) (by decide)
  · exact absurd (hold.symm.trans unheld) (by decide)

theorem DistrictRecord.lt_of_ok {d : DistrictRecord} (ok : d.Ok) (notLocked : d.state ≠ .locked)
    (notClass : ¬ (d.state = .halted ∧ d.confirmPending = false ∧ d.returnClass = .locked)) :
    d.n < Config.NLOCK := by
  obtain ⟨⟨most, locks⟩, _⟩ := ok
  exact Nat.lt_of_le_of_ne most fun full => (locks full).elim notLocked notClass

/-- LOCKED takes every count and every hold (R44, R58). -/
theorem DistrictRecord.ok_of_locked {d : DistrictRecord} (locked : d.state = .locked) (most : d.n ≤ Config.NLOCK) :
    d.Ok := by
  refine ⟨⟨most, fun _ => Or.inl locked⟩, fun dark => ?_, fun halted => ?_,
    fun _ => Or.inr (Or.inr (Or.inl locked)), fun _ halted => ?_⟩
  · rw [locked] at dark
    cases dark
  · rw [locked] at halted
    cases halted
  · rw [locked] at halted
    cases halted

/-- DARK asks for the hold (03 3.11). -/
theorem DistrictRecord.ok_of_dark {d : DistrictRecord} (dark : d.state = .dark) (few : d.n < Config.NLOCK)
    (hold : d.hold = true) : d.Ok := by
  refine ⟨⟨few.le, fun full => absurd full few.ne⟩, fun _ => hold, fun halted => ?_, fun _ => Or.inl dark,
    fun _ halted => ?_⟩
  · rw [dark] at halted
    cases halted
  · rw [dark] at halted
    cases halted

/-- SWITCHING takes a hold (R62). -/
theorem DistrictRecord.ok_of_switching {d : DistrictRecord} (switching : d.state = .switching)
    (few : d.n < Config.NLOCK) : d.Ok := by
  refine ⟨⟨few.le, fun full => absurd full few.ne⟩, fun dark => ?_, fun halted => ?_,
    fun _ => Or.inr (Or.inl switching), fun _ halted => ?_⟩
  · rw [switching] at dark
    cases dark
  · rw [switching] at halted
    cases halted
  · rw [switching] at halted
    cases halted

/-- A HALTED district carries NLOCK with class LOCKED alone, and its hold goes with class DARK or LOCKED once it is
settled (R44, R63). -/
theorem DistrictRecord.ok_of_halted {d : DistrictRecord} (halted : d.state = .halted) (most : d.n ≤ Config.NLOCK)
    (locks : d.n = Config.NLOCK → d.confirmPending = false ∧ d.returnClass = .locked)
    (dark : d.confirmPending = false → d.returnClass = .dark → d.hold = true)
    (holds : d.hold = true → d.confirmPending = false → d.returnClass = .dark ∨ d.returnClass = .locked) :
    d.Ok := by
  refine ⟨⟨most, fun full => Or.inr ⟨halted, locks full⟩⟩, fun isDark => ?_, fun _ => dark,
    fun _ => Or.inr (Or.inr (Or.inr halted)), fun hold _ => holds hold⟩
  rw [halted] at isDark
  cases isDark

/-- Whether a record is legal is read of the count, the hold, the state and what waits in HALTED. -/
theorem DistrictRecord.ok_congr {d e : DistrictRecord} (ok : d.Ok) (state : e.state = d.state := by rfl)
    (n : e.n = d.n := by rfl) (hold : e.hold = d.hold := by rfl)
    (isPending : e.confirmPending = d.confirmPending := by rfl) (cls : e.returnClass = d.returnClass := by rfl) :
    e.Ok := by
  unfold DistrictRecord.Ok DistrictRecord.CountOk DistrictRecord.HoldOk
  rw [state, n, hold, isPending, cls]
  exact ok

theorem DistrictRecord.ok_tick {d : DistrictRecord} (ok : d.Ok) : d.tick.Ok := by
  unfold DistrictRecord.tick
  split
  · exact DistrictRecord.ok_congr ok
  · exact ok

theorem DistrictRecord.ok_advance {d : DistrictRecord} (ok : d.Ok) : d.advance.Ok := by
  unfold DistrictRecord.advance
  split <;> exact DistrictRecord.ok_congr ok

/-- The class given at the beginning of a halt is LOCKED for a LOCKED district and DARK for a DARK one alone (R167). -/
theorem DistrictRecord.ok_toHalted {d : DistrictRecord} (ok : d.Ok) (running : d.state ≠ .halted) : d.toHalted.Ok := by
  obtain ⟨⟨most, locks⟩, dark, _, holds, _⟩ := ok
  refine DistrictRecord.ok_of_halted rfl most (fun full => ?_) (fun _ isDark => ?_) (fun hold settled => ?_)
  · have locked : d.state = .locked := (locks full).resolve_right fun both => running both.1
    simp [DistrictRecord.toHalted, DistrictRecord.classOnHalt, locked]
  · refine dark ?_
    cases state : d.state <;> simp [DistrictRecord.toHalted, DistrictRecord.classOnHalt, state] at *
    split at isDark <;> cases isDark
  · rcases holds hold with state | state | state | state
    · exact Or.inl (by simp [DistrictRecord.toHalted, DistrictRecord.classOnHalt, state])
    · simp [DistrictRecord.toHalted, state] at settled
    · exact Or.inr (by simp [DistrictRecord.toHalted, DistrictRecord.classOnHalt, state])
    · exact absurd state running

theorem DistrictRecord.pardon_free {d : DistrictRecord} (free : d.Free) : d.pardon.Free :=
  ⟨Nat.lt_of_le_of_lt (Nat.sub_le _ _) free.1, free.2⟩

/-- A pardon is given in COOLING alone, and takes the count down (R88). -/
theorem DistrictRecord.ok_pardon {d : DistrictRecord} (ok : d.Ok) (pardonable : d.pardonable = true) :
    d.pardon.Ok := by
  have cooling : d.state = .cooling := by
    simp [DistrictRecord.pardonable] at pardonable
    exact pardonable.1.1.1
  have serves : d.state.serves = true := by rw [cooling]; rfl
  exact DistrictRecord.ok_of_free (DistrictRecord.pardon_free (DistrictRecord.free_of_ok ok serves)) serves

theorem NLOCK_pos : 0 < Config.NLOCK := by decide

theorem DistrictRecord.failedCount_le (d : DistrictRecord) : d.failedCount ≤ Config.NLOCK := Nat.min_le_right _ _

end Sys2Proof.Machine
end

section
/-! PROOFS. The count and the hold through the moves of a district (03, 04): each leaves the record of its own district
legal (R44, R61 to R63). -/

namespace Sys2Proof.Machine

variable {k : District} {s : State}

/-! ### Entries -/

theorem DistrictRecord.ok_probesOrLocks {d : DistrictRecord} (free : d.Free) (disagrees : Bool) :
    (d.probesOrLocks disagrees).Ok := by
  unfold DistrictRecord.probesOrLocks
  split
  · exact DistrictRecord.ok_of_locked rfl free.1.le
  · exact DistrictRecord.ok_of_free free rfl

theorem State.ok_lockForRelay (most : (s.record k).n ≤ Config.NLOCK) : ((s.lockForRelay k).record k).Ok := by
  rw [State.record_lockForRelay]
  exact DistrictRecord.ok_of_locked rfl most

/-- A fault locks a district whose count has reached NLOCK, and cools any other (R44). -/
theorem State.ok_failWith (fault : FaultKind) {n : Nat} (window : Bool) (most : n ≤ Config.NLOCK)
    (unheld : (s.record k).hold = false) : ((s.failWith k fault n window).record k).Ok := by
  rw [State.record_failWith]
  split
  · exact DistrictRecord.ok_of_locked rfl most
  · rename_i few
    exact DistrictRecord.ok_of_free ⟨Nat.lt_of_not_le few, unheld⟩ rfl

theorem State.ok_countFailure (fault : FaultKind) (unheld : (s.record k).hold = false) :
    ((s.countFailure k fault).record k).Ok :=
  State.ok_failWith fault false (DistrictRecord.failedCount_le _) unheld

theorem State.ok_pardonAtTrip (ok : (s.record k).Ok) : ((s.pardonAtTrip k).record k).Ok := by
  rw [State.record_pardonAtTrip]
  split
  · rename_i pardoned
    exact DistrictRecord.ok_pardon ok pardoned.1
  · exact ok

theorem State.ok_pardonOnIntent (ok : (s.record k).Ok) : ((s.pardonOnIntent k).record k).Ok := by
  rw [State.record_pardonOnIntent]
  split
  · rename_i pardonable
    exact DistrictRecord.ok_pardon ok pardonable
  · exact ok

theorem State.ok_tripLive (fault : FaultKind) (unheld : (s.record k).hold = false) :
    ((s.tripLive k fault).record k).Ok := by
  refine State.ok_pardonAtTrip (State.ok_failWith fault _ ?_ unheld)
  split
  · exact DistrictRecord.failedCount_le _
  · exact Nat.zero_le _

theorem State.ok_tripRamp (fault : FaultKind) (unheld : (s.record k).hold = false) :
    ((s.tripRamp k fault).record k).Ok :=
  State.ok_pardonAtTrip (State.ok_failWith fault _ (DistrictRecord.failedCount_le _) unheld)

theorem State.ok_enterSwitching (few : (s.record k).n < Config.NLOCK) : ((s.enterSwitching k).record k).Ok := by
  rw [State.record_enterSwitching]
  exact DistrictRecord.ok_of_switching rfl few

theorem State.ok_enterContend (origin : Origin) (free : (s.record k).Free) :
    ((s.enterContend k origin).record k).Ok := by
  rw [State.record_enterContend]
  split
  · exact DistrictRecord.ok_of_switching rfl free.1
  · exact DistrictRecord.ok_of_free free rfl

theorem State.ok_exitByOrigin (watch : WatchKind) (free : (s.record k).Free) :
    ((s.exitByOrigin k watch).record k).Ok := by
  rw [State.record_exitByOrigin]
  unfold State.recordAfterExit
  split
  · exact DistrictRecord.ok_of_free free rfl
  · exact DistrictRecord.ok_of_free free rfl
  · exact DistrictRecord.ok_probesOrLocks free _

/-! ### Detections and verdicts -/

theorem State.ok_detectLive (det : Detection) (ok : (s.record k).Ok) (free : (s.record k).Free) :
    ((s.detectLive k det).record k).Ok := by
  unfold State.detectLive
  cases det with
  | hard =>
    dsimp only
    split
    · exact State.ok_enterContend _ free
    · exact State.ok_tripLive _ free.2
  | overload => exact State.ok_tripLive _ free.2
  | early => exact State.ok_enterContend _ free
  | inrush => exact ok

theorem State.ok_detectRamping (det : Detection) (ok : (s.record k).Ok) (free : (s.record k).Free) :
    ((s.detectRamping k det).record k).Ok := by
  unfold State.detectRamping
  cases det with
  | hard =>
    dsimp only
    split
    · exact State.ok_enterContend _ free
    · exact State.ok_tripRamp _ free.2
  | inrush => exact State.ok_tripRamp (s := s.startHoldoff) _ free.2
  | overload => exact ok
  | early => exact ok

theorem State.ok_probeVerdict (v : Verdict) (free : (s.record k).Free) :
    ((s.probeVerdict k v).record k).Ok := by
  unfold State.probeVerdict
  cases v with
  | clear =>
    rw [State.enterQueued, State.record_moveOff]
    exact DistrictRecord.ok_of_free free rfl
  | short =>
    dsimp only
    split
    · refine State.ok_enterContend _ ?_
      rw [State.record_modRecord_self]
      exact free
    · exact State.ok_countFailure _ free.2

/-- A sample is treated with the gate on alone, where neither NLOCK nor a hold stands. -/
theorem State.ok_treatSample (l : Nat) (c : Code) (ok : (s.record k).Ok) : ((s.treatSample k l c).record k).Ok := by
  have free (serves : (s.record k).state.serves = true) := DistrictRecord.free_of_ok ok serves
  unfold State.treatSample
  cases state : (s.record k).state with
  | live =>
    have free := free (by rw [state]; rfl)
    dsimp only [State.sampleLive]
    split
    · exact State.ok_detectLive (s := s.setEngine k _) _ ok free
    · exact ok
  | ramping =>
    have free := free (by rw [state]; rfl)
    dsimp only [State.sampleRamping]
    split
    · exact State.ok_detectRamping (s := s.setEngine k _) _ ok free
    · exact ok
  | probing =>
    have free := free (by rw [state]; rfl)
    dsimp only
    split
    · unfold State.sampleProbe
      split
      · exact ok
      · split
        · exact ok
        · exact State.ok_probeVerdict _ free
    · exact ok
  | halted | dark | cooling | queued | contend | switching | locked => exact ok

/-! ### Flip intents -/

theorem State.ok_hearIntentInContend (ok : (s.record k).Ok) : ((s.hearIntentInContend k).record k).Ok := by
  unfold State.hearIntentInContend
  dsimp only
  split
  · rename_i hears
    refine State.ok_exitByOrigin _ ?_
    rw [State.record_modRecord_self]
    exact DistrictRecord.free_of_ok ok (by rw [hears.1]; rfl)
  · exact ok

theorem State.ok_districtHearsIntent (own : Option District) (ok : (s.record k).Ok) :
    ((State.districtHearsIntent own k s).record k).Ok := by
  unfold State.districtHearsIntent
  split
  · rename_i wins
    exact State.ok_enterSwitching (DistrictRecord.free_of_ok ok (by rw [wins.2]; rfl)).1
  · split
    · exact State.ok_pardonOnIntent ok
    · exact State.ok_pardonOnIntent (State.ok_hearIntentInContend ok)

/-! ### Halts -/

theorem State.ok_enterHalted (ok : (s.record k).Ok) : ((s.enterHalted k).record k).Ok := by
  by_cases halted : (s.record k).state = .halted
  · rw [State.enterHalted_of_halted halted]
    exact ok
  · rw [State.record_enterHalted k s halted]
    exact DistrictRecord.ok_toHalted ok halted

/-- A settled HALTED district carries NLOCK and a hold to LOCKED, a hold to DARK, and neither anywhere else (R170). -/
theorem State.ok_leaveHalted (ok : (s.record k).Ok) : ((s.leaveHalted k).record k).Ok := by
  rw [State.record_leaveHalted]
  unfold State.recordAfterHalt
  dsimp only
  split
  · rename_i settled
    obtain ⟨halted, notPending⟩ := settled
    have few (cls : (s.record k).returnClass ≠ .locked) : (s.record k).n < Config.NLOCK :=
      DistrictRecord.lt_of_ok ok (by rw [halted]; decide) fun h => cls h.2.2
    obtain ⟨⟨most, _⟩, _, dark, _, holds⟩ := ok
    have unheld (notDark : (s.record k).returnClass ≠ .dark) (notLocked : (s.record k).returnClass ≠ .locked) :
        (s.record k).hold = false :=
      Bool.eq_false_iff.mpr fun hold => (holds hold halted notPending).elim notDark notLocked
    have free (notDark : (s.record k).returnClass ≠ .dark) (notLocked : (s.record k).returnClass ≠ .locked) :
        (s.record k).Free := ⟨few notLocked, unheld notDark notLocked⟩
    cases cls : (s.record k).returnClass with
    | queue => exact DistrictRecord.ok_of_free (free (by simp [cls]) (by simp [cls])) rfl
    | cool => exact DistrictRecord.ok_of_free (free (by simp [cls]) (by simp [cls])) rfl
    | probe => exact DistrictRecord.ok_probesOrLocks (free (by simp [cls]) (by simp [cls])) _
    | dark => exact DistrictRecord.ok_of_dark rfl (few (by simp [cls])) (dark halted notPending cls)
    | locked => exact DistrictRecord.ok_of_locked rfl most
  · exact ok

/-- A changeover inside a halt is settled with a class that goes with the hold (R86, R168). -/
theorem State.ok_settlePending {cls : ReturnClass} (halted : (s.record k).state = .halted)
    (few : (s.record k).n < Config.NLOCK) (dark : cls = .dark → (s.record k).hold = true)
    (holds : (s.record k).hold = true → cls = .dark ∨ cls = .locked) : ((s.settlePending k cls).record k).Ok := by
  have settled : ((s.modRecord k (DistrictRecord.settled cls)).record k).Ok := by
    rw [State.record_modRecord_self]
    exact DistrictRecord.ok_of_halted halted few.le (fun full => absurd full few.ne) (fun _ => dark)
      (fun hold _ => holds hold)
  cases running : s.halted with
  | true =>
    rw [State.settlePending_halted running]
    exact settled
  | false =>
    rw [State.settlePending_running running]
    exact State.ok_leaveHalted settled

/-! ### Changeover -/

theorem State.ok_confirmSwitching (ok : (s.record k).Ok) (switching : (s.record k).state = .switching) :
    ((s.confirmSwitching k).record k).Ok := by
  have few : (s.record k).n < Config.NLOCK :=
    DistrictRecord.lt_of_ok ok (by rw [switching]; decide) fun h => nomatch switching.symm.trans h.1
  unfold State.confirmSwitching
  dsimp only
  split
  · rename_i hold
    rw [State.record_enterDark, State.record_modRecord_self]
    exact DistrictRecord.ok_of_dark rfl NLOCK_pos hold
  · rename_i unheld
    have free : (s.record k).Free := ⟨few, Bool.eq_false_iff.mpr unheld⟩
    split
    · exact State.ok_countFailure _ free.2
    · refine State.ok_exitByOrigin _ ?_
      rw [State.record_modRecord_self]
      exact free

/-- A confirm-pending district carries neither NLOCK nor a class that its hold does not go with (R168). -/
theorem DistrictRecord.pendingInHalt_iff {d : DistrictRecord} :
    d.pendingInHalt = true ↔ d.state = .halted ∧ d.confirmPending = true := by
  simp [DistrictRecord.pendingInHalt]

theorem DistrictRecord.lt_of_pending {d : DistrictRecord} (ok : d.Ok) (halted : d.state = .halted)
    (isPending : d.confirmPending = true) : d.n < Config.NLOCK :=
  DistrictRecord.lt_of_ok ok (by rw [halted]; decide) fun h => nomatch isPending.symm.trans h.2.1

theorem State.ok_confirmPendingFlip (ok : (s.record k).Ok) (halted : (s.record k).state = .halted)
    (isPending : (s.record k).confirmPending = true) : ((s.confirmPendingFlip k).record k).Ok := by
  have record : ((s.modRelay k Relay.countFlip).modRecord k (fun d => { d with yielded := false })).record k =
      { s.record k with yielded := false } := State.record_modRecord_self k _ _
  unfold State.confirmPendingFlip
  dsimp only
  refine State.ok_settlePending ?_ ?_ ?_ ?_ <;> rw [record]
  · exact halted
  · exact DistrictRecord.lt_of_pending ok halted isPending
  · cases (s.record k).hold
    · exact fun h => nomatch h
    · exact fun _ => rfl
  · intro hold
    exact Or.inl (if_pos hold)

theorem State.ok_confirmRunsOut (ok : (s.record k).Ok) : ((s.confirmRunsOut k).record k).Ok := by
  obtain ⟨⟨most, _⟩, _⟩ := id ok
  unfold State.confirmRunsOut
  dsimp only
  split
  · exact State.ok_lockForRelay (s := s.modRelay k _) most
  · split
    · rename_i _ inHalt
      obtain ⟨halted, isPending⟩ := DistrictRecord.pendingInHalt_iff.mp inHalt
      have record : (((s.modRelay k (fun r => { r with confirm := none })).modRecord k
          (fun d => { d with lastFault := .relay })).setAlert).record k = { s.record k with lastFault := .relay } :=
        State.record_modRecord_self k (fun d => { d with lastFault := .relay })
          (s.modRelay k (fun r => { r with confirm := none }))
      refine State.ok_settlePending ?_ ?_ (fun h => nomatch h) (fun _ => Or.inr rfl) <;> rw [record]
      · exact halted
      · exact DistrictRecord.lt_of_pending ok halted isPending
    · exact ok

theorem State.ok_relayFault (ok : (s.record k).Ok) : ((s.relayFault k).record k).Ok := by
  obtain ⟨⟨most, _⟩, _⟩ := id ok
  unfold State.relayFault
  dsimp only
  cases state : (s.record k).state with
  | locked =>
    dsimp only
    rw [State.record_modRecord_self]
    exact DistrictRecord.ok_congr ok
  | halted =>
    dsimp only
    split
    · exact ok
    · rename_i settled
      rw [State.record_modRecord_self]
      exact DistrictRecord.ok_of_halted state most (fun _ => ⟨Bool.eq_false_iff.mpr settled, rfl⟩)
        (fun _ h => nomatch h) (fun _ _ => Or.inr rfl)
  | switching => exact ok
  | live | ramping | probing | cooling | queued | contend | dark => exact State.ok_lockForRelay most

theorem State.ok_judgeReading (ok : (s.record k).Ok) : ((s.judgeReading k).record k).Ok := by
  unfold State.judgeReading
  dsimp only
  split
  · rename_i switching
    split
    · exact State.ok_confirmSwitching ok switching
    · exact ok
  · split
    · rename_i inHalt
      obtain ⟨halted, isPending⟩ := DistrictRecord.pendingInHalt_iff.mp inHalt
      split
      · exact State.ok_confirmPendingFlip ok halted isPending
      · exact ok
    · split
      · exact State.ok_relayFault ok
      · exact ok

theorem State.ok_cnfDelivered (level : Level) (ok : (s.record k).Ok) : ((s.cnfDelivered k level).record k).Ok := by
  unfold State.cnfDelivered
  split
  · dsimp only
    split
    · exact ok
    · exact State.ok_judgeReading (s := s.modRelay k _) ok
  · exact ok

/-! ### Release and hold -/

theorem State.ok_release (ok : (s.record k).Ok) : ((s.release k).record k).Ok := by
  rw [State.record_release]
  unfold State.recordAfterRelease
  dsimp only
  split
  · split
    · rename_i hold
      exact DistrictRecord.ok_of_dark rfl NLOCK_pos hold
    · rename_i unheld
      exact DistrictRecord.ok_probesOrLocks (d := { s.record k with n := 0 }) ⟨NLOCK_pos, Bool.eq_false_iff.mpr unheld⟩ _
  · split
    · rename_i settled
      refine DistrictRecord.ok_of_halted settled.1 (Nat.zero_le _) (fun h => nomatch h) ?_ ?_ <;>
        cases (s.record k).hold <;> simp
    · exact ok

theorem DistrictRecord.ok_held {d : DistrictRecord} (ok : d.Ok) : d.held.Ok := by
  have dark (e : DistrictRecord) (hold : e.hold = true) (zero : e.n = 0) : e.toDark.Ok :=
    DistrictRecord.ok_of_dark rfl (zero.trans_lt NLOCK_pos) hold
  unfold DistrictRecord.held
  split
  case h_1 halted =>
    exact DistrictRecord.ok_of_halted halted (Nat.zero_le _) (fun h => nomatch h) (fun _ _ => rfl)
      fun _ settled => Or.inl (if_neg (Bool.eq_false_iff.mp settled))
  case h_2 switching =>
    have few : d.n < Config.NLOCK :=
      DistrictRecord.lt_of_ok ok (by rw [switching]; decide) fun h => nomatch switching.symm.trans h.1
    exact DistrictRecord.ok_of_switching switching few
  case h_3 isDark => exact DistrictRecord.ok_of_dark isDark NLOCK_pos rfl
  all_goals exact dark _ rfl rfl

theorem State.ok_holdSet (ok : (s.record k).Ok) : ((s.holdSet k).record k).Ok := by
  rw [State.record_holdSet]
  exact DistrictRecord.ok_held ok

theorem State.ok_holdClear (ok : (s.record k).Ok) : ((s.holdClear k).record k).Ok := by
  obtain ⟨⟨most, locks⟩, _, _, holds, _⟩ := id ok
  have few (notLocked : (s.record k).state ≠ .locked) (notClass : ¬ ((s.record k).state = .halted ∧
      (s.record k).confirmPending = false ∧ (s.record k).returnClass = .locked)) :
      (s.record k).n < Config.NLOCK := DistrictRecord.lt_of_ok ok notLocked notClass
  rw [State.record_holdClear]
  unfold State.recordAfterHoldClear
  dsimp only
  split
  case isFalse => exact ok
  case isTrue hold =>
    split
    case isTrue => exact DistrictRecord.ok_probesOrLocks (d := { s.record k with hold := false, n := 0 }) ⟨NLOCK_pos, rfl⟩ _
    case isFalse notDark =>
      split
      case isTrue settled =>
        have few := few (by rw [settled.1]; decide) fun h => nomatch settled.2.2.symm.trans h.2.2
        exact DistrictRecord.ok_of_halted settled.1 most (fun full => absurd full few.ne) (fun _ h => nomatch h)
          (fun h => nomatch h)
      case isFalse notClass =>
        rcases holds hold with state | state | state | state
        · exact absurd state notDark
        · exact DistrictRecord.ok_of_switching state
            (few (by rw [state]; decide) fun h => nomatch state.symm.trans h.1)
        · exact DistrictRecord.ok_of_locked state most
        · refine DistrictRecord.ok_of_halted state most (fun full => ?_)
            (fun settled cls => absurd ⟨state, settled, cls⟩ notClass) (fun h => nomatch h)
          exact ((locks full).resolve_left (by rw [state]; decide)).2

end Sys2Proof.Machine
end

section
/-! PROOFS. The count and the hold along every command, the clock's microsecond and the step (R44, 03 3.11). -/

namespace Sys2Proof.Machine

variable {s t : State}

/-! ### What the invariant rests on -/

/-- The records are read of the districts alone. -/
theorem State.recordsOk_congr (h : s.RecordsOk) (districts : t.districts = s.districts := by rfl) : t.RecordsOk := by
  intro k
  rw [show t.record k = s.record k from congrArg (fun q => PerDistrict.get q k) districts]
  exact h k

/-- An operation of one district need only see to that district. -/
theorem State.recordsOk_of_onlyDistrict {k : District} (only : State.onlyDistrict k s t)
    (own : (s.record k).Ok → (t.record k).Ok) (h : s.RecordsOk) : t.RecordsOk := by
  intro j
  by_cases same : j = k
  · subst same
    exact own (h j)
  · rw [(only.1 j same).1]
    exact h j

/-- Four steps, each legal for its own district, are legal for all. -/
theorem State.recordsOk_eachDistrict {f : District → State → State}
    (only : ∀ (k : District) (s : State), State.onlyDistrict k s (f k s))
    (own : ∀ (k : District) (s : State), (s.record k).Ok → ((f k s).record k).Ok) (h : s.RecordsOk) :
    (s.eachDistrict f).RecordsOk :=
  State.eachDistrict_keeps (P := State.RecordsOk) only
    (fun k u => State.recordsOk_of_onlyDistrict (only k u) (own k u)) h

/-- A change of every district's record that keeps each legal keeps the invariant. -/
theorem State.recordsOk_mapRecords {f : DistrictRecord → DistrictRecord} (keeps : ∀ {d}, d.Ok → (f d).Ok)
    (districts : t.districts = s.districts.map f) (h : s.RecordsOk) : t.RecordsOk := by
  intro k
  have record : t.record k = f (s.record k) :=
    (congrArg (fun q => PerDistrict.get q k) districts).trans (PerDistrict.get_map f s.districts k)
  rw [record]
  exact keeps (h k)

/-- A change of one record that leaves it legal. -/
theorem State.recordsOk_modRecord {k : District} {f : DistrictRecord → DistrictRecord}
    (own : (s.record k).Ok → (f (s.record k)).Ok) (h : s.RecordsOk) : (s.modRecord k f).RecordsOk := by
  refine State.recordsOk_of_onlyDistrict (State.onlyDistrict_modRecord k f s) (fun ok => ?_) h
  rw [State.record_modRecord_self]
  exact own ok

/-- Where a condition holds the state moves on, and else it stays. -/
theorem State.recordsOk_ite {p : Prop} [Decidable p] (h : s.RecordsOk) (moved : p → t.RecordsOk) :
    (if p then t else s).RecordsOk := by
  split
  · exact moved ‹p›
  · exact h

theorem State.districts_of_sameOutsideLine (same : State.sameOutsideLine s t) : t.districts = s.districts :=
  (State.unmoved_of_sameOutsideLine same).districts

theorem State.districts_of_sameOutsideAttempt (same : State.sameOutsideAttempt s t) : t.districts = s.districts := by
  unfold State.sameOutsideAttempt at same
  rw [same]

theorem State.districts_of_onlyLine (same : State.onlyLine s t) : t.districts = s.districts := by
  unfold State.onlyLine at same
  rw [same]

@[simp] theorem State.districts_showLine (level : Level) (s : State) : (s.showLine level).districts = s.districts :=
  State.districts_of_sameOutsideLine (State.sameOutsideLine_showLine level s)

@[simp] theorem State.districts_attempt (s : State) : s.attempt.districts = s.districts :=
  State.districts_of_sameOutsideAttempt (State.sameOutsideAttempt_attempt s)

@[simp] theorem State.districts_endAttempt (s : State) : s.endAttempt.districts = s.districts :=
  State.districts_of_sameOutsideAttempt (State.sameOutsideAttempt_endAttempt s)

@[simp] theorem State.districts_edgeTaken (idle : Nat) (s : State) : (s.edgeTaken idle).districts = s.districts :=
  State.districts_of_sameOutsideLine (State.sameOutsideLine_edgeTaken idle s)

@[simp] theorem State.districts_releaseDriver (s : State) : s.releaseDriver.districts = s.districts :=
  State.districts_of_sameOutsideLine (State.sameOutsideLine_releaseDriver s)

@[simp] theorem State.districts_characterHanded (raw : RawChar) (s : State) :
    (s.characterHanded raw).districts = s.districts :=
  State.districts_of_sameOutsideLine (State.sameOutsideLine_characterHanded raw s)

@[simp] theorem State.districts_frameComplete (data : Byte) (s : State) :
    (s.frameComplete data).districts = s.districts := State.districts_of_onlyLine (State.onlyLine_frameComplete data s)

/-! ### The ramp list unit and the halts (08, 09) -/

theorem State.recordsOk_chooseAgain (h : s.RecordsOk) : s.chooseAgain.RecordsOk :=
  State.recordsOk_congr h (by rw [State.chooseAgain_frame])

theorem DistrictRecord.ok_toRamping_of_queued {d : DistrictRecord} (ok : d.Ok) (queued : d.state = .queued) :
    d.toRamping.Ok := by
  have free : d.Free := DistrictRecord.free_of_ok ok (by rw [queued]; rfl)
  exact DistrictRecord.ok_of_free free rfl

theorem State.recordsOk_directStart (h : s.RecordsOk) : s.directStart.RecordsOk := by
  intro k
  rcases State.record_directStart s k with same | ⟨_, queued, ramps⟩
  · rw [same]
    exact h k
  · rw [ramps]
    exact DistrictRecord.ok_toRamping_of_queued (h k) queued

theorem State.recordsOk_followUp (before : State) (h : s.RecordsOk) : (State.followUp before s).RecordsOk := by
  intro k
  rcases State.record_followUp before s k with same | ⟨_, queued, ramps⟩
  · rw [same]
    exact h k
  · rw [ramps]
    exact DistrictRecord.ok_toRamping_of_queued (h k) queued

theorem State.recordsOk_endHalt (h : s.RecordsOk) : s.endHalt.RecordsOk :=
  State.recordsOk_eachDistrict State.onlyDistrict_leaveHalted (fun _ _ => State.ok_leaveHalted) h

theorem State.recordsOk_beginHalt (h : s.RecordsOk) : s.beginHalt.RecordsOk :=
  State.recordsOk_eachDistrict State.onlyDistrict_enterHalted (fun _ _ => State.ok_enterHalted) h

theorem State.recordsOk_setCause (c : HaltCause) (h : s.RecordsOk) : (s.setCause c).RecordsOk := by
  have marked : (s.causeSet c).RecordsOk := State.recordsOk_congr h (by rw [State.causeSet_frame])
  cases halted : s.halted with
  | true =>
    rw [State.setCause_of_halted c halted]
    exact marked
  | false =>
    rw [State.setCause_of_running c halted]
    exact State.recordsOk_beginHalt marked

theorem State.recordsOk_clearCause (c : HaltCause) (h : s.RecordsOk) : (s.clearCause c).RecordsOk := by
  unfold State.clearCause
  dsimp only
  split
  · exact State.recordsOk_endHalt (State.recordsOk_congr h)
  · exact State.recordsOk_congr h

theorem State.recordsOk_enterQuiet (h : s.RecordsOk) : s.enterQuiet.RecordsOk := by
  unfold State.enterQuiet
  dsimp only
  split
  · exact State.recordsOk_endHalt (State.recordsOk_congr h)
  · exact State.recordsOk_congr h

/-! ### Samples (01, 02) -/

theorem State.onlyDistrict_treatSample (k : District) (l : Nat) (c : Code) (s : State) :
    State.onlyDistrict k s (s.treatSample k l c) := by
  have measured (e : Engine) := State.onlyDistrict_setEngine k e s
  unfold State.treatSample
  cases (s.record k).state with
  | live =>
    dsimp only [State.sampleLive]
    split
    · exact State.onlyDistrict_trans (measured _) (State.onlyDistrict_detectLive k _ _)
    · exact measured _
  | ramping =>
    dsimp only [State.sampleRamping]
    split
    · exact State.onlyDistrict_trans (measured _) (State.onlyDistrict_detectRamping k _ _)
    · exact measured _
  | probing =>
    dsimp only
    split
    · unfold State.sampleProbe
      split
      · exact State.onlyDistrict_refl k s
      · split
        · exact measured _
        · exact State.onlyDistrict_probeVerdict k _ s
    · exact State.onlyDistrict_refl k s
  | halted | dark | cooling | queued | contend | switching | locked => exact State.onlyDistrict_refl k s

theorem State.recordsOk_currentSample (k : District) (code : Code) (h : s.RecordsOk) :
    (s.currentSample k code).RecordsOk := by
  have taken : ({ s with isenPins := s.isenPins.set k code,
                         converter := s.converter.handedOn k.val } : State).RecordsOk := State.recordsOk_congr h
  unfold State.currentSample
  split
  · exact h
  · dsimp only
    split
    · exact State.recordsOk_followUp s
        (State.recordsOk_of_onlyDistrict (State.onlyDistrict_treatSample k _ code _) (State.ok_treatSample _ code) taken)
    · exact taken

theorem State.recordsOk_supplySample (v : Code) (h : s.RecordsOk) : (s.supplySample v).RecordsOk := by
  unfold State.supplySample
  split
  · exact h
  · dsimp only
    split
    · exact State.recordsOk_followUp s (State.recordsOk_setCause _ (State.recordsOk_congr h))
    · split
      · exact State.recordsOk_followUp s (State.recordsOk_clearCause _ (State.recordsOk_congr h))
      · exact State.recordsOk_congr h

/-! ### The ends of timers (03, 04) -/

theorem State.recordsOk_pulseStart (k : District) (h : s.RecordsOk) : (s.pulseStart k).RecordsOk :=
  State.recordsOk_ite h fun _ =>
    State.recordsOk_modRecord (fun ok => DistrictRecord.ok_congr ok) (State.recordsOk_congr h)

theorem State.recordsOk_coolingExpires (k : District) (h : s.RecordsOk) : (s.coolingExpires k).RecordsOk := by
  refine State.recordsOk_ite h fun cooling => ?_
  have only := State.onlyDistrict_trans (State.onlyDistrict_modRecord k (fun d => { d with cooling := 0 }) s)
    (State.onlyDistrict_enterProbing k _)
  refine State.recordsOk_of_onlyDistrict only (fun ok => ?_) h
  have free : (s.record k).Free := DistrictRecord.free_of_ok ok (by rw [cooling]; rfl)
  rw [State.record_enterProbing_modRecord (fun d => { d with cooling := 0 }) k s]
  exact DistrictRecord.ok_probesOrLocks (d := { s.record k with cooling := 0 }) free _

/-- The settle window ends with a count of 0, in LIVE alone (R46). -/
theorem State.recordsOk_settleExpires (k : District) (h : s.RecordsOk) : (s.settleExpires k).RecordsOk := by
  refine State.recordsOk_ite h fun runs => State.recordsOk_modRecord (fun ok => ?_) h
  have serves : (s.record k).state.serves = true := by rw [runs.1]; rfl
  exact DistrictRecord.ok_of_free ⟨NLOCK_pos, (DistrictRecord.free_of_ok ok serves).2⟩ serves

theorem State.recordsOk_rampCompletes (k : District) (h : s.RecordsOk) : (s.rampCompletes k).RecordsOk := by
  refine State.recordsOk_ite h fun ramping => State.recordsOk_followUp s ?_
  refine State.recordsOk_of_onlyDistrict (State.onlyDistrict_completeRamp k s) (fun ok => ?_) h
  have free : (s.record k).Free := DistrictRecord.free_of_ok ok (by rw [ramping]; rfl)
  rw [State.record_completeRamp]
  exact DistrictRecord.ok_of_free free rfl

theorem State.recordsOk_rampAdvances (k : District) (h : s.RecordsOk) : (s.rampAdvances k).RecordsOk := by
  refine State.recordsOk_ite h fun _ => ?_
  split
  · exact State.recordsOk_modRecord (fun ok => DistrictRecord.ok_congr ok) h
  · exact State.recordsOk_rampCompletes k h

theorem State.recordsOk_contendRunsOut (k : District) (h : s.RecordsOk) : (s.contendRunsOut k).RecordsOk :=
  State.recordsOk_ite h fun contend =>
    State.recordsOk_of_onlyDistrict (State.onlyDistrict_enterSwitching k s)
      (fun ok => State.ok_enterSwitching (DistrictRecord.free_of_ok ok (by rw [contend]; rfl)).1) h

/-! ### The peer line (05) and the local inputs (01 1.6) -/

@[simp] theorem State.districts_gapError (s : State) : s.gapError.districts = s.districts := by
  unfold State.gapError
  split <;> rfl

theorem State.districts_idleGap (s : State) : s.idleGap.districts = s.districts := by
  unfold State.idleGap
  split
  · rfl
  · rw [State.districts_attempt, State.districts_gapError, State.districts_modLine, State.districts_showLine]

theorem State.districts_idleBoundary (s : State) : s.idleBoundary.districts = s.districts := by
  unfold State.idleBoundary
  dsimp only
  split
  · exact State.districts_attempt _
  · rfl

theorem State.districts_joinEdge (idle : Nat) (s : State) : (s.joinEdge idle).districts = s.districts := by
  have shown : s.edgeShown.districts = s.districts := State.districts_showLine .low s
  unfold State.joinEdge
  rw [State.districts_edgeTaken]
  split
  · exact (State.districts_attempt _).trans shown
  · exact shown

theorem State.districts_arbitrationLost (s : State) : s.arbitrationLost.districts = s.districts := by
  have lost : (s.endAttempt.showLine .low).districts = s.districts := by
    rw [State.districts_showLine, State.districts_endAttempt]
  unfold State.arbitrationLost
  split
  · dsimp only
    split <;> exact lost
  · rfl

theorem State.districts_driveMinimumEnd (s : State) : s.driveMinimumEnd.districts = s.districts := by
  unfold State.driveMinimumEnd
  split
  · split
    · rfl
    · exact State.districts_releaseDriver s
  · rfl
  · rfl

theorem State.recordsOk_driverFault (h : s.RecordsOk) : s.driverFault.RecordsOk :=
  State.recordsOk_ite h fun _ => State.recordsOk_followUp s
    (State.recordsOk_enterQuiet (State.recordsOk_congr h (by rw [State.districts_showLine, State.districts_endAttempt])))

theorem State.recordsOk_breakDetected (h : s.RecordsOk) : s.breakDetected.RecordsOk := by
  have shown : (s.endAttempt.showLine .low).districts = s.districts := by
    rw [State.districts_showLine, State.districts_endAttempt]
  unfold State.breakDetected
  dsimp only
  generalize s.endAttempt.showLine .low = u at shown
  exact State.recordsOk_followUp s (State.recordsOk_setCause .lineStop (State.recordsOk_congr h shown))

theorem State.recordsOk_stopAssertedNow (h : s.RecordsOk) : s.stopAssertedNow.RecordsOk :=
  State.recordsOk_setCause .lineStop (State.recordsOk_congr h (State.startBreakDriver_unmoved s).districts)

theorem State.recordsOk_setQualifier (pin : InputPin) (q : Qualifier) (h : s.RecordsOk) :
    (s.setQualifier pin q).RecordsOk :=
  State.recordsOk_congr h (State.unmoved_setQualifier s pin q).districts

theorem State.recordsOk_resumePressed (h : s.RecordsOk) : s.resumePressed.RecordsOk :=
  State.recordsOk_ite h fun _ =>
    State.recordsOk_congr (State.recordsOk_clearCause .lineStop h) (State.districts_post _ _)

theorem State.recordsOk_releasePressed (h : s.RecordsOk) : s.releasePressed.RecordsOk := by
  have released : (s.eachDistrict State.release).clearAlert.RecordsOk := by
    have each := State.recordsOk_eachDistrict State.onlyDistrict_release (fun _ _ => State.ok_release) h
    exact State.recordsOk_ite each fun _ => State.recordsOk_congr each
  unfold State.releasePressed
  cases s.mode with
  | straps | selfTest => exact h
  | listen | run | quiet | strapFault => exact released

theorem State.recordsOk_deliver (pin : InputPin) (before : Option Level) (level : Level) (h : s.RecordsOk) :
    (s.deliver pin before level).RecordsOk := by
  unfold State.deliver
  cases pin with
  | stop =>
    dsimp only
    split
    · exact State.recordsOk_stopAssertedNow h
    · exact State.recordsOk_congr h (State.districts_of_sameOutsideLine (State.sameOutsideLine_stopReleased s))
  | resume => exact State.recordsOk_ite h fun _ => State.recordsOk_resumePressed h
  | release => exact State.recordsOk_ite h fun _ => State.recordsOk_releasePressed h
  | cnf k =>
    exact State.recordsOk_of_onlyDistrict (State.onlyDistrict_cnfDelivered k level s) (State.ok_cnfDelivered level) h

theorem State.recordsOk_debounceExpiry (pin : InputPin) (h : s.RecordsOk) : (s.debounceExpiry pin).RecordsOk :=
  State.recordsOk_ite h fun _ =>
    State.recordsOk_followUp s (State.recordsOk_deliver pin _ _ (State.recordsOk_setQualifier pin _ h))

/-! ### Frames (06) -/

theorem State.recordsOk_intentOfGroup (own : Option District) (h : s.RecordsOk) : (s.intentOfGroup own).RecordsOk :=
  State.recordsOk_eachDistrict (State.onlyDistrict_districtHearsIntent own)
    (fun _ _ => State.ok_districtHearsIntent own) (State.recordsOk_congr (t := s.heardIntent) h)

theorem State.recordsOk_addressed (loc : Where) {f : District → State → State}
    (only : ∀ (k : District) (s : State), State.onlyDistrict k s (f k s))
    (own : ∀ (k : District) (s : State), (s.record k).Ok → ((f k s).record k).Ok) (h : s.RecordsOk) :
    (s.addressed loc f).RecordsOk := by
  unfold State.addressed
  split
  · exact State.recordsOk_eachDistrict only own h
  · exact State.recordsOk_of_onlyDistrict (only _ s) (own _ s) h

theorem State.districts_posts (posts : List Post) (s : State) :
    (posts.foldl (fun s p => s.post p) s).districts = s.districts := by
  induction posts generalizing s with
  | nil => rfl
  | cons p rest ih => exact (ih (s.post p)).trans (State.districts_post p s)

theorem State.recordsOk_dispatchPeer (f : Frame) (h : s.RecordsOk) : (s.dispatchPeer f).RecordsOk := by
  unfold State.dispatchPeer
  cases f.post.kind with
  | fi => exact State.recordsOk_intentOfGroup none h
  | tr =>
    dsimp only
    split <;> exact State.recordsOk_congr h
  | re | rb => exact State.recordsOk_congr h
  | rs => exact State.recordsOk_ite h fun _ => State.recordsOk_clearCause .lineStop h
  | hd =>
    dsimp only
    split
    · exact State.recordsOk_addressed _ State.onlyDistrict_holdSet (fun _ _ => State.ok_holdSet) h
    · exact State.recordsOk_addressed _ State.onlyDistrict_holdClear (fun _ _ => State.ok_holdClear) h
  | rl => exact State.recordsOk_addressed _ State.onlyDistrict_release (fun _ _ => State.ok_release) h
  | sq => exact State.recordsOk_congr h (State.districts_posts _ s)
  | st | unknown _ => exact h

theorem State.recordsOk_duplicateReport (h : s.RecordsOk) : s.duplicateReport.RecordsOk := by
  unfold State.duplicateReport
  cases s.mode with
  | run => exact State.recordsOk_enterQuiet h
  | listen => exact State.recordsOk_congr h
  | quiet | straps | selfTest | strapFault => exact h

theorem State.recordsOk_peerFrame (f : Frame) (h : s.RecordsOk) : (s.peerFrame f).RecordsOk := by
  have done : (s.frameComplete f.post.data).RecordsOk := State.recordsOk_congr h (State.districts_frameComplete _ s)
  refine State.recordsOk_ite h fun _ => ?_
  dsimp only
  split
  · exact done
  · exact State.recordsOk_followUp s (State.recordsOk_duplicateReport done)
  · exact State.recordsOk_followUp s (State.recordsOk_dispatchPeer f done)

/-- The re-check starts the ramp of a QUEUED district alone (R158). -/
theorem State.recordsOk_recheck (k : District) (h : s.RecordsOk) : (s.recheck k).RecordsOk := by
  have told (f : RampUnit → RampUnit) : (s.modRamp f).RecordsOk := State.recordsOk_congr (t := s.modRamp f) h
  unfold State.recheck
  dsimp only
  split
  · rename_i passes
    refine State.recordsOk_of_onlyDistrict (State.onlyDistrict_startRamp k _) (fun ok => ?_) (told _)
    rw [show ∀ u : State, (u.startRamp k).record k = (u.record k).toRamping from State.record_moveOff k _]
    exact DistrictRecord.ok_toRamping_of_queued ok passes.1
  · exact State.recordsOk_congr (told _) (State.districts_post _ _)

theorem State.recordsOk_dispatchOwn (f : Frame) (h : s.RecordsOk) : (s.dispatchOwn f).RecordsOk := by
  unfold State.dispatchOwn
  cases f.post.kind with
  | fi => exact State.recordsOk_intentOfGroup _ h
  | rb => exact State.recordsOk_recheck _ h
  | tr => exact State.recordsOk_ite h fun _ => State.recordsOk_congr h
  | re | rs | st | hd | rl | sq | unknown _ => exact h

theorem State.recordsOk_ownCompletion (f : Frame) (h : s.RecordsOk) : (s.ownCompletion f).RecordsOk := by
  have freed : (if s.sentAll then (s.settleAttempt true).modLine (fun l => { l with tx := none })
      else ((s.settleAttempt true).modLine (fun l => { l with tx := none })).showLine .high).districts =
        s.districts := by
    split
    · rfl
    · exact State.districts_showLine .high _
  have done := State.recordsOk_dispatchOwn f (State.recordsOk_congr h ((State.districts_frameComplete f.post.data _).trans freed))
  unfold State.ownCompletion
  dsimp only
  split
  · exact State.recordsOk_directStart (State.recordsOk_chooseAgain done)
  · exact State.recordsOk_followUp s done

theorem State.recordsOk_completeInFlight (about : Kind → Bool) (h : s.RecordsOk) :
    (s.completeInFlight about).RecordsOk := by
  unfold State.completeInFlight
  split
  · exact State.recordsOk_ite h fun _ => State.recordsOk_ownCompletion _ h
  · exact h

theorem State.recordsOk_takeClean (data : Byte) (mark : Bool) (h : s.RecordsOk) :
    (s.takeClean data mark).RecordsOk := by
  have handed : (s.characterHanded (RawChar.ofClean data mark)).RecordsOk :=
    State.recordsOk_congr h (State.districts_characterHanded _ s)
  unfold State.takeClean
  dsimp only
  split
  · exact State.recordsOk_congr handed
  · split
    · exact handed
    · split
      · exact State.recordsOk_congr handed
      · exact State.recordsOk_congr handed
      · unfold State.takeData
        dsimp only
        split
        · exact State.recordsOk_ownCompletion _ h
        · exact State.recordsOk_peerFrame _ h
      · exact handed

theorem State.recordsOk_selfTestHanded (raw : RawChar) (h : s.RecordsOk) : (s.selfTestHanded raw).RecordsOk := by
  have handed : (s.characterHanded raw).RecordsOk := State.recordsOk_congr h (State.districts_characterHanded raw s)
  unfold State.selfTestHanded
  dsimp only
  split
  · exact State.recordsOk_ite handed fun _ => State.recordsOk_congr handed
  · exact handed

theorem State.recordsOk_characterArrives (raw : RawChar) (h : s.RecordsOk) : (s.characterArrives raw).RecordsOk := by
  have handed : (s.characterHanded raw).RecordsOk := State.recordsOk_congr h (State.districts_characterHanded raw s)
  have assembled : (if raw.status = .clean then s.takeClean raw.data raw.mark
      else (s.characterHanded raw).discardAssembly).RecordsOk := by
    split
    · exact State.recordsOk_takeClean _ _ h
    · exact State.recordsOk_congr (t := (s.characterHanded raw).discardAssembly) handed
  unfold State.characterArrives
  cases s.mode with
  | straps => exact handed
  | selfTest => exact State.recordsOk_selfTestHanded raw h
  | listen | run | quiet | strapFault => exact assembled

/-! ### Start-up (10) -/

/-- Right after a reset every district is HALTED with its count at 0 and no hold (R68). -/
theorem State.recordsOk_afterReset (s : State) : s.afterReset.RecordsOk := by
  intro k
  rw [show s.afterReset.record k = DistrictRecord.reset from PerDistrict.get_all _ k]
  exact DistrictRecord.ok_of_halted rfl (Nat.zero_le _) (fun h => nomatch h) (fun _ h => nomatch h) (fun h => nomatch h)

/-- The strap decoding writes the reversing flag alone of a record (R39). -/
theorem State.ok_configureDistrict {k : District} (c : StationConfig) (ok : (s.record k).Ok) :
    ((State.configureDistrict c k s).record k).Ok := by
  have flagged : ((s.modRecord k (fun d => { d with reversing := c.reverses k })).record k).Ok := by
    rw [State.record_modRecord_self]
    exact DistrictRecord.ok_congr ok
  unfold State.configureDistrict
  dsimp only
  split
  · split <;> exact flagged
  · exact flagged

theorem State.recordsOk_strapReading (strap : Fin 6) (round : Fin 4) (code : Code) (h : s.RecordsOk) :
    (s.strapReading strap round code).RecordsOk := by
  refine State.recordsOk_ite h fun _ => ?_
  dsimp only
  split
  · unfold State.decodeNow
    dsimp only
    split
    · rename_i c _
      have configured := State.recordsOk_eachDistrict (State.onlyDistrict_configureDistrict c)
        (fun _ _ => State.ok_configureDistrict c)
        (State.recordsOk_congr (t := { s with
          strPins := s.strPins.set strap.val code,
          readings := recordReading { strap := strap, round := round, code := code } s.readings,
          converter := .scan 0 0, config := some c }) h)
      exact State.recordsOk_congr configured
    · exact State.recordsOk_congr h
  · exact State.recordsOk_congr h

theorem State.recordsOk_endListen (h : s.RecordsOk) : s.endListen.RecordsOk := by
  unfold State.endListen
  dsimp only
  split
  · exact State.recordsOk_followUp _ (State.recordsOk_enterQuiet (State.recordsOk_congr h))
  · exact State.recordsOk_chooseAgain (State.recordsOk_clearCause .start (State.recordsOk_congr h))

/-! ### Every command, and the step -/

/-- Every command keeps the counts and the holds legal, each by its own meaning. -/
theorem exec_keeps_recordsOk (c : Instr) (h : s.RecordsOk) (next : exec c s = .next t) : t.RecordsOk := by
  have kept {u : State} (districts : u.districts = s.districts) : u.RecordsOk := State.recordsOk_congr h districts
  have onLine {u : State} (same : State.sameOutsideLine s u) : u.RecordsOk :=
    kept (State.districts_of_sameOutsideLine same)
  cases c
  all_goals cases Host.Outcome.next.inj next
  case reset => exact State.recordsOk_afterReset s
  case strapReading strap round code => exact State.recordsOk_strapReading strap round code h
  case currentSample k code => exact State.recordsOk_currentSample k code h
  case supplySample v => exact State.recordsOk_supplySample v h
  case probePulseStart k => exact State.recordsOk_pulseStart k h
  case rawInputChange pin level => exact State.recordsOk_setQualifier pin _ h
  case debounceExpiry pin => exact State.recordsOk_debounceExpiry pin h
  case breakDriveMinimumEnd => exact kept (State.districts_driveMinimumEnd s)
  case coolingExpiry k => exact State.recordsOk_coolingExpires k h
  case settleWindowExpiry k => exact State.recordsOk_settleExpires k h
  case rampKAdvance k => exact State.recordsOk_rampAdvances k h
  case rampCompletion k => exact State.recordsOk_rampCompletes k h
  case contendTimeout k => exact State.recordsOk_contendRunsOut k h
  case confirmTimeout k =>
    exact State.recordsOk_of_onlyDistrict (State.onlyDistrict_confirmRunsOut k s) State.ok_confirmRunsOut h
  case flipWatchEnd k =>
    exact State.recordsOk_ite h fun _ => State.recordsOk_modRecord (fun ok => DistrictRecord.ok_congr ok) h
  case yieldWatchEnd k =>
    exact State.recordsOk_ite h fun _ => State.recordsOk_modRecord (fun ok => DistrictRecord.ok_congr ok) h
  case chatterWindowExpiry k => exact State.recordsOk_ite h fun _ => kept rfl
  case pardonWindowEnd k => exact State.recordsOk_modRecord (fun ok => DistrictRecord.ok_congr ok) h
  case millisecondTick => exact State.recordsOk_mapRecords DistrictRecord.ok_tick rfl h
  case peerEntryExpiry => exact State.recordsOk_directStart (kept rfl)
  case floorExpiry => exact State.recordsOk_directStart (kept rfl)
  case holdoffEnd => exact State.recordsOk_directStart (kept rfl)
  case lampPhaseAdvance => exact kept rfl
  case selftestCharacter raw => exact State.recordsOk_ite h fun _ => State.recordsOk_selfTestHanded raw h
  case endOfSelftest => exact State.recordsOk_ite h fun _ => kept rfl
  case endOfListen => exact State.recordsOk_ite h fun _ => State.recordsOk_endListen h
  case characterError raw => exact State.recordsOk_characterArrives raw h
  case shortError head => exact State.recordsOk_characterArrives _ h
  case idleGap => exact kept (State.districts_idleGap s)
  case idleBoundaryAttempt => exact kept (State.districts_idleBoundary s)
  case join idle => exact kept (State.districts_joinEdge _ s)
  case arbitrationLoss => exact kept (State.districts_arbitrationLost s)
  case driverFault => exact State.recordsOk_driverFault h
  case breakDetected => exact State.recordsOk_breakDetected h
  case breakEnd => exact onLine (State.sameOutsideLine_breakEnds s)
  case cleanCharacter data mark => exact State.recordsOk_characterArrives _ h
  case lineFallingEdge idle => exact onLine (State.sameOutsideLine_fallingEdge _ s)
  case startRecheck level => exact onLine (State.sameOutsideLine_startRecheck level s)
  case ownFiCompletion => exact State.recordsOk_completeInFlight _ h
  case ownRbCompletion => exact State.recordsOk_completeInFlight _ h
  case ownTrCompletion => exact State.recordsOk_completeInFlight _ h
  case ownFrameCompletion => exact State.recordsOk_completeInFlight _ h
  all_goals exact State.recordsOk_peerFrame _ h

/-- The clock runs a due command or lets a microsecond pass, which keeps every record legal. -/
theorem clockStep_keeps_recordsOk (h : s.RecordsOk) (next : s.clockStep = .next t) : t.RecordsOk := by
  unfold State.clockStep at next
  split at next
  · cases Host.Outcome.next.inj next
    exact State.recordsOk_mapRecords DistrictRecord.ok_advance rfl h
  · exact exec_keeps_recordsOk _ h next
  · exact exec_keeps_recordsOk _ (State.recordsOk_congr h) next

end Sys2Proof.Machine

open Sys2Proof Sys2Proof.Machine

/-- Settles O59: by the command at the front of the queue, or the clock, each of which keeps every record legal. -/
theorem stepKeepsRecordsOk : Obligations.StepKeepsRecordsOk := by
  intro s t h next
  unfold step at next
  split at next
  · exact clockStep_keeps_recordsOk h next
  · exact exec_keeps_recordsOk _ (State.recordsOk_congr h) next

end

section
/-! PROOFS. The lamps, the ends of the windows and the millisecond clock (R40, R46, R79, R82, R87, R142, R197, R198). -/

namespace Sys2Proof.Machine

/-! ### Lamps and gates -/

theorem State.lampAdvance_eq {s : State} (bounded : s.lampPhase ≤ 15) :
    s.lampAdvance = { s with lampPhase := if s.lampPhase = 15 then 0 else s.lampPhase + 1, lampLeft := 62500 } := by
  have phase : (s.lampPhase + 1) % Config.NPHASE = if s.lampPhase = 15 then 0 else s.lampPhase + 1 := by
    simp only [Config.NPHASE]
    split <;> omega
  unfold State.lampAdvance
  rw [phase]
  rfl

theorem lampLit_flashing {st : DistrictState} (flashing : st = .ramping ∨ st = .probing ∨ st = .contend ∨ st = .switching)
    (p : Nat) : lampLit st p = true ↔ p % 2 = 0 := by
  rcases flashing with rfl | rfl | rfl | rfl <;> exact beq_iff_eq

theorem lampLit_slow {st : DistrictState} (slow : st = .cooling ∨ st = .queued) {p : Nat} (bounded : p ≤ 15) :
    lampLit st p = true ↔ p ≤ 3 ∨ 8 ≤ p ∧ p ≤ 11 := by
  have half : lampLit st p = true ↔ p % 8 < 4 := by
    rcases slow with rfl | rfl <;> exact decide_eq_true_iff
  rw [half]
  omega

theorem lampLit_locked (p : Nat) : lampLit .locked p = true ↔ p = 0 ∨ p = 2 := by
  simp [lampLit]

theorem DistrictRecord.gate_iff (d : DistrictRecord) :
    d.gate = true ↔ d.state = .live ∨ d.state = .ramping ∨ d.state = .probing ∧ d.phase = .pulse := by
  unfold DistrictRecord.gate
  cases d.state <;> simp

/-! ### The windows of a district -/

theorem mem_dueIf {b : Bool} {c d : Instr} : c ∈ dueIf b d ↔ b = true ∧ c = d := by
  cases b <;> simp [dueIf]

/-- tCOOL(n) is a whole number of ms (R47). -/
theorem tCOOL_whole (n : Nat) : Config.tCOOL n = 1000 * (Config.tCOOL n / 1000) := by
  have whole : 1000 ∣ Config.tCOOL n := ⟨125 * 2 ^ min n 5, by simp only [Config.tCOOL, Config.ms]; ring⟩
  exact (Nat.mul_div_cancel' whole).symm

/-- More than tPARDON of the cooling has run when more than 10 whole ms have (R87, log entry 9). -/
theorem DistrictRecord.pardonRun_iff (d : DistrictRecord) :
    Config.tPARDON < d.coolingRun ↔ 10 < Config.tCOOL d.n / 1000 - (d.cooling + 999) / 1000 := by
  have whole := tCOOL_whole d.n
  simp only [Config.tPARDON, Config.ms, DistrictRecord.coolingRun, msLeftOf]
  omega

theorem State.pardonWindowEnd_due_iff {s : State} {k : District} (cooling : (s.record k).state = .cooling) :
    Instr.pardonWindowEnd k ∈ s.dueDistrict k ↔
      (s.record k).pardonWindow = true ∧ Config.tPARDON < (s.record k).coolingRun := by
  unfold State.dueDistrict
  simp only [cooling, List.mem_append, mem_dueIf]
  simp

/-! ### The millisecond clock -/

theorem RampEntry.tick_reads (e : RampEntry) :
    (e.tick.station, e.tick.district, e.tick.life) = (e.station, e.district, e.life.map (· - 1)) := by
  obtain ⟨station, district, kind⟩ := e
  cases kind <;> rfl

theorem Floor.tick_reads (floor : Option Floor) :
    (floor.map (fun f => { f with life := f.life - 1 })).map (fun f => (f.value, f.life)) =
      floor.map (fun f => (f.value, f.life - 1)) := by
  cases floor <;> rfl

/-- The list without a peer entry holds every other entry (R147, R148). -/
theorem State.mem_removePeerEntry {s : State} {station : StationNumber} {k : District} {e : RampEntry}
    (he : e ∈ s.ramp.list) :
    e ∈ (s.removePeerEntry station k).ramp.list ↔
      ¬ (e.isOwn = false ∧ e.station = station ∧ e.district = k) := by
  rw [State.list_removePeerEntry, List.mem_filter]
  cases own : e.isOwn <;> simp [he, own, RampEntry.isPeer, RampEntry.hasKey, imp_iff_not_or]

end Sys2Proof.Machine

open Sys2Proof Sys2Proof.Machine

/-- Settles O32: the lamp by the class of the state in the cycle, and the gate by its state. -/
theorem lampsAndGates : Obligations.LampsAndGates := by
  intro s k bounded
  refine ⟨congrArg Host.Outcome.next (State.lampAdvance_eq bounded), ?_⟩
  have lamp (st : DistrictState) (h : (s.record k).state = st) : s.lamp k = lampLit st s.lampPhase :=
    congrArg (fun st => lampLit st s.lampPhase) h
  have lamp := lamp _ rfl
  refine ⟨fun live => ?_, fun flashing => ?_, fun slow => ?_, fun locked => ?_, fun out => ?_,
    DistrictRecord.gate_iff (s.record k)⟩
  · rw [lamp, live]
    rfl
  · rw [lamp]
    exact lampLit_flashing flashing s.lampPhase
  · rw [lamp]
    exact lampLit_slow slow bounded
  · rw [lamp, locked]
    exact lampLit_locked s.lampPhase
  · rcases out with out | out <;> rw [lamp, out] <;> rfl

/-- Settles O27: each window ends in the state that it runs in, and the pardon window is due by whole ms of the
cooling. -/
theorem windowsEnd : Obligations.WindowsEnd := by
  intro s k
  refine ⟨fun live runs => ?_, fun live watch => ?_, fun live watch => ?_, fun runs => ?_, fun cooling => ⟨rfl, ?_⟩⟩
  · exact congrArg Host.Outcome.next (if_pos ⟨live, runs⟩)
  · exact congrArg Host.Outcome.next (if_pos ⟨live, watch⟩)
  · exact congrArg Host.Outcome.next (if_pos ⟨live, watch⟩)
  · exact congrArg Host.Outcome.next (if_pos runs)
  · rw [State.pardonWindowEnd_due_iff cooling, DistrictRecord.pardonRun_iff]

/-- Settles O30: a tick reads each timer of the unit once, and outside QUIET no start follows the end of one. -/
theorem millisecondClock : Obligations.MillisecondClock := by
  intro s station k
  refine ⟨⟨s.msTick, rfl, fun j => ?_, ?_, Floor.tick_reads s.ramp.floor, rfl, rfl, rfl, rfl, rfl⟩, fun notQuiet => ?_⟩
  · exact PerDistrict.get_map DistrictRecord.tick s.districts j
  · show (s.ramp.list.map RampEntry.tick).map (fun e => (e.station, e.district, e.life)) = _
    rw [List.map_map]
    exact List.map_congr_left fun e _ => RampEntry.tick_reads e
  · have noStart {t : State} (mode : t.mode = s.mode) : t.directStart = t :=
      State.directStart_outside_quiet (by rwa [mode])
    refine ⟨⟨s.removePeerEntry station k, congrArg Host.Outcome.next (noStart rfl), rfl,
      fun e he => State.mem_removePeerEntry he⟩, ?_, ?_⟩
    · exact congrArg Host.Outcome.next (noStart (t := s.modRamp _) rfl)
    · exact congrArg Host.Outcome.next (noStart (t := s.modRamp _) rfl)

end

section
/-! PROOFS. The entry to PROBING, the probe pulse and the direct start of QUIET (R32, R48, R49, R53, R85, R149,
R161). -/

namespace Sys2Proof.Machine

variable {k : District} {s : State}

/-! ### Moves from a state that takes nothing along -/

/-- Leaving a state other than RAMPING, QUEUED and CONTEND takes nothing along (R67). -/
theorem State.depart_unmoved (notRamping : (s.record k).state ≠ .ramping) (notQueued : (s.record k).state ≠ .queued)
    (notContend : (s.record k).state ≠ .contend) : s.depart k = s := by
  unfold State.depart
  cases state : (s.record k).state with
  | ramping => exact absurd state notRamping
  | queued => exact absurd state notQueued
  | contend => exact absurd state notContend
  | halted | dark | live | cooling | probing | switching | locked => rfl

theorem State.enterProbing_agrees (agrees : s.relayDisagrees k = false) :
    s.enterProbing k = s.moveOff k DistrictRecord.toProbing := by
  have moved : (s.moveOff k DistrictRecord.toProbing).relayDisagrees k = s.relayDisagrees k :=
    State.relayDisagrees_congr (by rw [State.record_moveOff]; rfl) (State.relay_moveOff k k _ s)
  unfold State.enterProbing
  exact if_neg (by rw [moved, agrees]; decide)

theorem State.enterProbing_disagrees (disagrees : s.relayDisagrees k = true) :
    s.enterProbing k = (s.moveOff k DistrictRecord.toProbing).lockForRelay k := by
  have moved : (s.moveOff k DistrictRecord.toProbing).relayDisagrees k = s.relayDisagrees k :=
    State.relayDisagrees_congr (by rw [State.record_moveOff]; rfl) (State.relay_moveOff k k _ s)
  unfold State.enterProbing
  exact if_pos (moved.trans disagrees)

/-- A gate that is off leaves its engine cleared (R36, R40). -/
theorem State.gate_eq (k : District) (s : State) : s.gate k = (s.record k).gate := rfl

/-! ### A relay fault that locks -/

theorem State.queue_enterLocked (k : District) (s : State) : (s.enterLocked k).queue = (s.depart k).queue := by
  unfold State.enterLocked State.setAlert
  exact State.queue_moveOff k DistrictRecord.toLocked s

theorem State.ramp_enterLocked (k : District) (s : State) : (s.enterLocked k).ramp = (s.depart k).ramp := by
  unfold State.enterLocked State.setAlert
  exact State.ramp_moveOff k DistrictRecord.toLocked s

/-- What a relay fault of a district that takes nothing along does beside its record: its TR is posted (R45, R85). -/
structure State.RelayLocks (k : District) (s t : State) : Prop where
  only : State.onlyDistrict k s t
  engine : t.engine k = Engine.cleared
  relay : t.relay k = s.relay k
  queue : t.queue = s.queueWith (s.frameFor .tr k (96 + (s.record k).n))
  rampKept : State.rampKept s t
  alert : t.alert = true

theorem State.relayLocks_enterLocked (still : s.depart k = s) (relay : (s.record k).lastFault = .relay) :
    State.RelayLocks k s ((s.enterLocked k).postTr k) := by
  have only : State.onlyDistrict k s (s.enterLocked k) := State.onlyDistrict_enterLocked k s
  have queue : (s.enterLocked k).queue = s.queue := by rw [State.queue_enterLocked, still]
  have ramp : (s.enterLocked k).ramp = s.ramp := by rw [State.ramp_enterLocked, still]
  have locked : (s.enterLocked k).record k = (s.record k).toLocked := State.record_enterLocked k s
  have tr : (s.enterLocked k).postTr k = (s.enterLocked k).post (s.frameFor .tr k (96 + (s.record k).n)) := by
    have posts := State.postTr_eq (s := s.enterLocked k) (k := k) (fault := .relay) (n := (s.record k).n)
      (by rw [locked]; exact relay) (by rw [locked]; rfl)
    rwa [State.frameFor_congr (State.config_of_sameOutside only.2)] at posts
  rw [tr]
  refine ⟨State.onlyDistrict_trans only (State.onlyDistrict_post k _ _), ?_, ?_, ?_, ?_, State.alert_post _ _⟩
  · rw [State.engine_post]
    exact State.engine_moveOff k DistrictRecord.toLocked s
  · rw [State.relay_post]
    exact State.relay_moveOff k k DistrictRecord.toLocked s
  · rw [State.queue_post]
    exact State.queueWith_congr (State.mode_of_sameOutside only.2) queue _
  · unfold State.rampKept
    rw [State.ramp_post, ← ramp]
    exact ⟨rfl, State.rbDistrict_post _ _⟩

theorem State.relayLocks_lockForRelay (notRamping : (s.record k).state ≠ .ramping)
    (notQueued : (s.record k).state ≠ .queued) (notContend : (s.record k).state ≠ .contend) :
    State.RelayLocks k s (s.lockForRelay k) := by
  have record : (s.modRecord k (fun d => { d with lastFault := .relay })).record k =
      { s.record k with lastFault := .relay } := State.record_modRecord_self k _ s
  have locks := State.relayLocks_enterLocked (k := k) (s := s.modRecord k (fun d => { d with lastFault := .relay }))
    (State.depart_unmoved (by rw [record]; exact notRamping) (by rw [record]; exact notQueued)
      (by rw [record]; exact notContend)) (by rw [record])
  have queue := locks.queue
  rw [record] at queue
  exact ⟨State.onlyDistrict_trans (State.onlyDistrict_modRecord k _ s) locks.only, locks.engine, locks.relay, queue,
    locks.rampKept, locks.alert⟩

/-! ### The end of the cooling -/

/-- A district that leaves the cooling stands at a cooling remaining of 0 (R48). -/
def State.cooled (k : District) (s : State) : State := s.modRecord k (fun d => { d with cooling := 0 })

theorem State.record_cooled (k : District) (s : State) :
    (s.cooled k).record k = { s.record k with cooling := 0 } := State.record_modRecord_self k _ s

theorem State.relayDisagrees_cooled (k : District) (s : State) :
    (s.cooled k).relayDisagrees k = s.relayDisagrees k := State.relayDisagrees_modRecord _ k s

theorem exec_coolingExpiry (cooling : (s.record k).state = .cooling) :
    exec (.coolingExpiry k) s = .next ((s.cooled k).enterProbing k) :=
  congrArg Host.Outcome.next (if_pos cooling)

theorem State.depart_cooled (cooling : (s.record k).state = .cooling) : (s.cooled k).depart k = s.cooled k := by
  have state : ((s.cooled k).record k).state = .cooling := by
    rw [State.record_cooled]
    exact cooling
  exact State.depart_unmoved (by rw [state]; decide) (by rw [state]; decide) (by rw [state]; decide)

/-- The entry to PROBING from COOLING moves its own district alone (R48, R49). -/
theorem State.districtAlone_coolingEnds (cooling : (s.record k).state = .cooling) :
    State.districtAlone k s ((s.cooled k).moveOff k DistrictRecord.toProbing) := by
  have still := State.depart_cooled cooling
  refine ⟨State.onlyDistrict_trans (State.onlyDistrict_modRecord k _ s) (State.onlyDistrict_moveOff k _ _), ?_, ?_,
    State.alert_moveOff k _ (s.cooled k)⟩
  · show ((s.cooled k).depart k).queue = s.queue
    rw [still]
    rfl
  · show ((s.cooled k).depart k).ramp = s.ramp
    rw [still]
    rfl

/-- A cooling that ends on a relay that disagrees locks the district (R49, R85). -/
theorem State.relayLocks_coolingEnds (cooling : (s.record k).state = .cooling) (disagrees : s.relayDisagrees k = true) :
    State.RelayLocks k s ((s.cooled k).enterProbing k) ∧
      ((s.cooled k).enterProbing k).record k =
        { { s.record k with cooling := 0 }.toProbing with lastFault := .relay }.toLocked := by
  let u : State := (s.cooled k).moveOff k DistrictRecord.toProbing
  obtain ⟨only, queue, ramp, _⟩ := State.districtAlone_coolingEnds cooling
  have record : u.record k = { s.record k with cooling := 0 }.toProbing := by
    rw [State.record_moveOff, State.record_cooled]
  have state : (u.record k).state = .probing := by
    rw [record]
    rfl
  rw [State.enterProbing_disagrees ((State.relayDisagrees_cooled k s).trans disagrees)]
  have locks : State.RelayLocks k u (u.lockForRelay k) :=
    State.relayLocks_lockForRelay (by rw [state]; decide) (by rw [state]; decide) (by rw [state]; decide)
  refine ⟨⟨State.onlyDistrict_trans only locks.only, locks.engine, locks.relay.trans (State.relay_moveOff k k _ _), ?_,
    ?_, locks.alert⟩, ?_⟩
  · have count : (u.record k).n = (s.record k).n := by
      rw [record]
      rfl
    rw [locks.queue, count, State.frameFor_congr (State.config_of_sameOutside only.2),
      State.queueWith_congr (State.mode_of_sameOutside only.2) queue]
  · have kept := locks.rampKept
    unfold State.rampKept at kept ⊢
    rwa [ramp] at kept
  · exact (State.record_lockForRelay k u).trans (by rw [record])

/-! ### The probe pulse -/

/-- The converter at the start of a scan, the engine with a fresh probe and the phase PULSE (R32, R49). -/
theorem exec_probePulseStart (probing : (s.record k).state = .probing) (waits : (s.record k).phase = .wait) :
    exec (.probePulseStart k) s =
      .next (({ s with converter := s.converter.scanStart }.setEngine k Engine.probing).modRecord k
        (fun d => { d with phase := .pulse })) :=
  congrArg Host.Outcome.next (if_pos ⟨probing, waits⟩)

/-! ### The direct start -/

theorem State.directStart_of_longest (quiet : s.mode = .quiet) (eligible : s.eligible = true)
    (noneRamps : s.anyDistrict .ramping = false) (longest : s.longestQueued = some k) :
    s.directStart = s.startRamp k := by
  unfold State.directStart
  rw [if_pos ⟨quiet, eligible, noneRamps⟩, longest]

theorem State.anyDistrict_false {st : DistrictState} (none : ∀ j : District, (s.record j).state ≠ st) :
    s.anyDistrict st = false := by
  unfold State.anyDistrict
  rw [List.any_eq_false]
  intro j _ found
  exact none j (eq_of_beq found)

@[simp] theorem State.record_startRamp (k : District) (s : State) :
    (s.startRamp k).record k = (s.record k).toRamping := State.record_moveOff k DistrictRecord.toRamping s

@[simp] theorem State.engine_startRamp (k : District) (s : State) : (s.startRamp k).engine k = Engine.cleared :=
  State.engine_moveOff k DistrictRecord.toRamping s

/-- A QUEUED district that starts its ramp: its RB is withdrawn and its own entry added (R52, R149). -/
theorem State.startRamp_of_queued (queued : (s.record k).state = .queued) :
    (s.startRamp k).queue = (s.withdraw .rb k).queue ∧
      (s.startRamp k).ramp =
        { s.ramp with
          list := s.ramp.list ++ [{ station := s.stationId, district := k, kind := .own }],
          rbDistrict := if s.ramp.rbDistrict = some k then none else s.ramp.rbDistrict } := by
  have departs : s.depart k = s.withdrawRb k := State.depart_of_queued queued
  have id : (s.moveOff k DistrictRecord.toRamping).stationId = s.stationId := by
    unfold State.stationId
    rw [State.config_of_sameOutside (State.onlyDistrict_moveOff k _ s).2]
  have ramp : (s.moveOff k DistrictRecord.toRamping).ramp = (s.withdrawRb k).ramp := by
    rw [State.ramp_moveOff, departs]
  have queue : (s.moveOff k DistrictRecord.toRamping).queue = (s.withdrawRb k).queue := by
    rw [State.queue_moveOff, departs]
  refine ⟨queue, ?_⟩
  unfold State.startRamp State.addOwnEntry
  rw [State.ramp_modRamp, ramp, id]
  rfl

end Sys2Proof.Machine

open Sys2Proof Sys2Proof.Machine

/-- Settles O26: the entry to PROBING by the relay's check, and the pulse at the start of a scan. -/
theorem probingBegins : Obligations.ProbingBegins := by
  intro s k
  refine ⟨fun cooling agrees => ?_, fun cooling disagrees => ?_, fun probing waits => ?_⟩
  · have agrees' := (State.relayDisagrees_cooled k s).trans agrees
    have record : ((s.cooled k).moveOff k DistrictRecord.toProbing).record k =
        { s.record k with cooling := 0 }.toProbing := by
      rw [State.record_moveOff, State.record_cooled]
    refine ⟨_, exec_coolingExpiry cooling, ?_⟩
    rw [State.enterProbing_agrees agrees']
    refine ⟨State.districtAlone_coolingEnds cooling, State.relay_moveOff k k _ _, State.engine_moveOff k _ _, ?_, record⟩
    rw [State.gate_eq, record]
    rfl
  · obtain ⟨locks, record⟩ := State.relayLocks_coolingEnds cooling disagrees
    refine ⟨_, exec_coolingExpiry cooling, locks.only, ?_, ?_, ?_, locks.alert, ?_, locks.queue, locks.rampKept⟩
    · rw [record]
      rfl
    · rw [record]
      rfl
    · rw [record]
      rfl
    · rw [State.gate_eq, record]
      rfl
  · let u : State := { s with converter := s.converter.scanStart }.setEngine k Engine.probing
    have record : (u.modRecord k (fun d => { d with phase := .pulse })).record k =
        { s.record k with phase := .pulse } := State.record_modRecord_self k _ u
    have only := State.onlyDistrict_trans
      (State.onlyDistrict_setEngine k Engine.probing { s with converter := s.converter.scanStart })
      (State.onlyDistrict_modRecord k (fun d => { d with phase := .pulse }) u)
    refine ⟨_, exec_probePulseStart probing waits, ?_, record, State.engine_setEngine_self _ k _, rfl, only.1, rfl, ?_⟩
    · refine State.gate_of_pulse ?_ ?_
      · exact (congrArg DistrictRecord.state record).trans probing
      · exact congrArg DistrictRecord.phase record
    · intro x y scan
      show s.converter.scanStart = _
      rw [scan]
      rfl

/-- Settles O31: the longest waiting district is the one that the direct start takes. -/
theorem quietStartsDirectly : Obligations.QuietStartsDirectly := by
  intro s k quiet notHalted room noneRamps queued longest empty
  let u : State := s.modRamp (fun r => { r with holdoff := none })
  have eligible : u.eligible = true := by
    have count : u.ramp.list.length < u.budgetInForce := room
    have running : u.halted = false := notHalted
    unfold State.eligible State.roomForRamp
    rw [decide_eq_true count, running]
    rfl
  have starts : u.directStart = u.startRamp k :=
    State.directStart_of_longest quiet eligible (State.anyDistrict_false noneRamps)
      (State.longestQueued_of_waitsLongest ⟨queued, longest⟩)
  obtain ⟨queue, ramp⟩ := State.startRamp_of_queued (s := u) queued
  have only := State.onlyDistrict_trans (State.onlyDistrict_modRamp k (fun r => { r with holdoff := none }) s)
    (State.onlyDistrict_startRamp k u)
  have record : (u.startRamp k).record k = (s.record k).toRamping := State.record_startRamp k u
  refine ⟨u.startRamp k, congrArg Host.Outcome.next starts, ?_, ?_, ?_, ?_, State.engine_startRamp k u, only.1, ?_, ?_, ?_,
    only.2⟩
  · rw [record]
    rfl
  · rw [record]
    rfl
  · rw [record]
    rfl
  · rw [State.gate_eq, record]
    rfl
  · rw [ramp]
    rfl
  · rw [ramp]
    rfl
  · rw [queue, State.withdraw_frame]
    show s.queue.filterMap _ = []
    rw [empty]
    rfl

end

section
/-! PROOFS. Release (R59, R60, R195): what it does to a district, that it leaves every place in QUEUED and RAMPING, and
how an addressed frame reaches its districts (R124). -/

namespace Sys2Proof.Machine

variable {k : District} {s t u : State}

/-! ### Operations that leave every place in QUEUED and RAMPING -/

/-- No district takes or leaves QUEUED or RAMPING, and what else the direct start reads is as it was (R154, R161). -/
structure State.Steady (s t : State) : Prop where
  queued : ∀ j : District, (t.record j).state = .queued ↔ (s.record j).state = .queued
  ramping : ∀ j : District, (t.record j).state = .ramping ↔ (s.record j).state = .ramping
  list : t.ramp.list = s.ramp.list
  floor : t.ramp.floor = s.ramp.floor
  holdoff : t.ramp.holdoff = s.ramp.holdoff
  mode : t.mode = s.mode
  config : t.config = s.config
  halt : t.halt = s.halt

theorem State.Steady.refl (s : State) : s.Steady s :=
  ⟨fun _ => Iff.rfl, fun _ => Iff.rfl, rfl, rfl, rfl, rfl, rfl, rfl⟩

theorem State.Steady.trans (h : s.Steady t) (h' : t.Steady u) : s.Steady u :=
  ⟨fun j => (h'.queued j).trans (h.queued j), fun j => (h'.ramping j).trans (h.ramping j), h'.list.trans h.list,
    h'.floor.trans h.floor, h'.holdoff.trans h.holdoff, h'.mode.trans h.mode, h'.config.trans h.config,
    h'.halt.trans h.halt⟩

theorem State.Unmoved.steady (h : s.Unmoved t) : s.Steady t := by
  have record (j : District) : t.record j = s.record j := congrArg (fun q => PerDistrict.get q j) h.districts
  refine ⟨fun j => ?_, fun j => ?_, ?_, ?_, ?_, h.mode, h.config, h.halt⟩
  · rw [record]
  · rw [record]
  · rw [h.ramp]
  · rw [h.ramp]
  · rw [h.ramp]

theorem State.steady_of_rampKept (only : State.onlyDistrict k s t) (kept : State.rampKept s t)
    (queued : (t.record k).state = .queued ↔ (s.record k).state = .queued)
    (ramping : (t.record k).state = .ramping ↔ (s.record k).state = .ramping) : s.Steady t := by
  refine ⟨fun j => ?_, fun j => ?_, ?_, ?_, ?_, State.mode_of_sameOutside only.2, State.config_of_sameOutside only.2,
    State.halt_of_sameOutside only.2⟩
  · by_cases same : j = k
    · rw [same]
      exact queued
    · rw [(only.1 j same).1]
  · by_cases same : j = k
    · rw [same]
      exact ramping
    · rw [(only.1 j same).1]
  · rw [kept.1]
  · rw [kept.1]
  · rw [kept.1]

theorem State.Steady.queuedDistricts (h : s.Steady t) : s.queuedDistricts = t.queuedDistricts := by
  unfold State.queuedDistricts
  refine List.filter_congr fun j _ => ?_
  rw [Bool.eq_iff_iff, beq_iff_eq, beq_iff_eq]
  exact (h.queued j).symm

theorem State.Steady.anyRamping (h : s.Steady t) : t.anyDistrict .ramping = s.anyDistrict .ramping := by
  unfold State.anyDistrict
  congr 1
  funext j
  rw [Bool.eq_iff_iff, beq_iff_eq, beq_iff_eq]
  exact h.ramping j

theorem State.Steady.noStartOwed (h : s.Steady t) (owed : s.NoStartOwed) : t.NoStartOwed := by
  unfold State.NoStartOwed at owed ⊢
  rw [h.mode, h.anyRamping, ← h.queuedDistricts, State.eligible_congr h.list h.floor h.holdoff h.config h.halt]
  exact owed

theorem State.Steady.followUp (h : s.Steady t) : State.followUp s t = t.directStart :=
  State.followUp_sameQueued h.queuedDistricts

/-- Where no start was owed, nothing follows (R161). -/
theorem State.Steady.followUp_of_noStartOwed (h : s.Steady t) (owed : s.NoStartOwed) : State.followUp s t = t :=
  State.followUp_settled h.queuedDistricts (h.noStartOwed owed)

/-! ### A release -/

theorem State.recordAfterRelease_held (locked : (s.record k).state = .locked) (hold : (s.record k).hold = true) :
    s.recordAfterRelease k = { s.record k with n := 0 }.toDark := by
  unfold State.recordAfterRelease
  dsimp only
  rw [if_pos locked, if_pos hold]

theorem State.recordAfterRelease_unheld (locked : (s.record k).state = .locked) (unheld : (s.record k).hold = false) :
    s.recordAfterRelease k = { s.record k with n := 0 }.probesOrLocks (s.relayDisagrees k) := by
  unfold State.recordAfterRelease
  dsimp only
  rw [if_pos locked, if_neg (Bool.eq_false_iff.mp unheld)]

theorem State.recordAfterRelease_halted (halted : (s.record k).state = .halted)
    (settled : (s.record k).confirmPending = false) (cls : (s.record k).returnClass = .locked) :
    s.recordAfterRelease k =
      { s.record k with n := 0, returnClass := if (s.record k).hold then .dark else .probe } := by
  unfold State.recordAfterRelease
  dsimp only
  rw [if_neg (by rw [halted]; decide), if_pos ⟨halted, settled, cls⟩]

/-- A release leaves every district that is neither LOCKED nor HALTED with class LOCKED (R59). -/
theorem State.recordAfterRelease_other (notLocked : (s.record k).state ≠ .locked)
    (notClass : ¬ ((s.record k).state = .halted ∧ (s.record k).confirmPending = false ∧
      (s.record k).returnClass = .locked)) : s.recordAfterRelease k = s.record k := by
  unfold State.recordAfterRelease
  dsimp only
  rw [if_neg notLocked, if_neg notClass]

theorem State.recordAfterRelease_congr (record : u.record k = s.record k) (relay : u.relay k = s.relay k) :
    u.recordAfterRelease k = s.recordAfterRelease k := by
  unfold State.recordAfterRelease
  rw [record, State.relayDisagrees_congr (by rw [record]) relay]

/-- A release takes a LOCKED district to DARK, PROBING or LOCKED, and else leaves the state (R59). -/
theorem State.state_recordAfterRelease (k : District) (s : State) :
    (s.record k).state = .locked ∧ ((s.recordAfterRelease k).state = .dark ∨ (s.recordAfterRelease k).state = .probing ∨
        (s.recordAfterRelease k).state = .locked) ∨
      (s.record k).state ≠ .locked ∧ (s.recordAfterRelease k).state = (s.record k).state := by
  by_cases locked : (s.record k).state = .locked
  · refine Or.inl ⟨locked, ?_⟩
    cases hold : (s.record k).hold with
    | true =>
      rw [State.recordAfterRelease_held locked hold]
      exact Or.inl rfl
    | false =>
      rw [State.recordAfterRelease_unheld locked hold]
      cases s.relayDisagrees k
      · exact Or.inr (Or.inl rfl)
      · exact Or.inr (Or.inr rfl)
  · refine Or.inr ⟨locked, ?_⟩
    unfold State.recordAfterRelease
    dsimp only
    rw [if_neg locked]
    split <;> rfl

theorem State.rampKept_of_eq (h : t.ramp = s.ramp) : State.rampKept s t := by
  unfold State.rampKept
  rw [h]
  exact ⟨rfl, Or.inl rfl⟩

/-- The entry to PROBING from a state that takes nothing along keeps the ramp list unit, but for an overflow by its TR
(R49, R85, R157). -/
theorem State.rampKept_enterProbing (notRamping : (s.record k).state ≠ .ramping)
    (notQueued : (s.record k).state ≠ .queued) (notContend : (s.record k).state ≠ .contend) :
    State.rampKept s (s.enterProbing k) := by
  have moved : (s.moveOff k DistrictRecord.toProbing).ramp = s.ramp := by
    rw [State.ramp_moveOff, State.depart_unmoved notRamping notQueued notContend]
  cases disagrees : s.relayDisagrees k with
  | false =>
    rw [State.enterProbing_agrees disagrees]
    exact State.rampKept_of_eq moved
  | true =>
    have state : ((s.moveOff k DistrictRecord.toProbing).record k).state = .probing := by
      rw [State.record_moveOff]
      rfl
    have kept := (State.relayLocks_lockForRelay (s := s.moveOff k DistrictRecord.toProbing) (k := k)
      (by rw [state]; decide) (by rw [state]; decide) (by rw [state]; decide)).rampKept
    rw [State.enterProbing_disagrees disagrees]
    unfold State.rampKept at kept ⊢
    rwa [moved] at kept

/-- The entry to DARK from a state that takes nothing along keeps the ramp list unit. -/
theorem State.ramp_enterDark (notRamping : (s.record k).state ≠ .ramping) (notQueued : (s.record k).state ≠ .queued)
    (notContend : (s.record k).state ≠ .contend) : (s.enterDark k).ramp = s.ramp := by
  rw [State.enterDark, State.ramp_moveOff, State.depart_unmoved notRamping notQueued notContend]

theorem State.rampKept_release (k : District) (s : State) : State.rampKept s (s.release k) := by
  have kept : State.rampKept s s := State.rampKept_of_eq rfl
  unfold State.release
  dsimp only
  split
  · rename_i locked
    have state : ((s.modRecord k (fun d => { d with n := 0 })).record k).state = .locked := by
      rw [State.record_modRecord_self]
      exact locked
    split
    · exact State.rampKept_of_eq
        (State.ramp_enterDark (by rw [state]; decide) (by rw [state]; decide) (by rw [state]; decide))
    · exact State.rampKept_enterProbing (s := s.modRecord k (fun d => { d with n := 0 })) (by rw [state]; decide)
        (by rw [state]; decide) (by rw [state]; decide)
  · split
    · exact kept
    · exact kept

theorem State.steady_release (k : District) (s : State) : s.Steady (s.release k) := by
  refine State.steady_of_rampKept (State.onlyDistrict_release k s) (State.rampKept_release k s) ?_ ?_ <;>
    rw [State.record_release]
  all_goals
    rcases State.state_recordAfterRelease k s with ⟨locked, after⟩ | ⟨_, same⟩
  · rw [locked]
    rcases after with h | h | h <;> rw [h] <;> decide
  · rw [same]
  · rw [locked]
    rcases after with h | h | h <;> rw [h] <;> decide
  · rw [same]

/-- A release sets the latch for a relay fault alone, and never clears it (R59, R85, R195). -/
theorem State.alert_release (k : District) (s : State) :
    (s.release k).alert =
      (decide ((s.record k).state = .locked ∧ (s.record k).hold = false ∧ s.relayDisagrees k = true) || s.alert) := by
  unfold State.release
  dsimp only
  split
  · rename_i locked
    split
    · rename_i hold
      rw [decide_eq_false (by rw [hold]; exact fun h => nomatch h.2.1), Bool.false_or]
      exact State.alert_moveOff k _ _
    · rename_i unheld
      rw [State.alert_enterProbing, State.relayDisagrees_modRecord (fun d => { d with n := 0 }) k s]
      have unheld : (s.record k).hold = false := Bool.eq_false_iff.mpr unheld
      cases s.relayDisagrees k <;> simp [locked, unheld]
  · rename_i notLocked
    rw [decide_eq_false fun h => notLocked h.1, Bool.false_or]
    split <;> rfl

theorem State.alert_release_keeps (k : District) (s : State) (h : s.alert = true) : (s.release k).alert = true := by
  rw [State.alert_release, h, Bool.or_true]

/-! ### RELEASE/ -/

theorem State.record_releaseAll (k : District) (s : State) :
    (s.eachDistrict State.release).record k = s.recordAfterRelease k := by
  obtain ⟨u, record, _, relay, _, after, _⟩ := State.record_eachDistrict State.onlyDistrict_release s k
  exact after.trans ((State.record_release k u).trans (State.recordAfterRelease_congr record relay))

theorem State.steady_releaseAll (s : State) : s.Steady (s.eachDistrict State.release) :=
  State.eachDistrict_keeps (P := s.Steady) State.onlyDistrict_release
    (fun j u kept => kept.trans (State.steady_release j u)) (State.Steady.refl s)

/-- The release of all districts sets the latch or leaves it (R60, R85). -/
theorem State.alert_releaseAll (s : State) :
    (s.eachDistrict State.release).alert = true ∨ (s.eachDistrict State.release).alert = s.alert :=
  State.eachDistrict_keeps (P := fun u => u.alert = true ∨ u.alert = s.alert) State.onlyDistrict_release
    (fun k u kept => by
      rw [State.alert_release]
      cases decide ((u.record k).state = .locked ∧ (u.record k).hold = false ∧ u.relayDisagrees k = true)
      · exact kept
      · exact Or.inl rfl)
    (Or.inr rfl)

theorem State.clearAlert_frame (s : State) : s.clearAlert = { s with alert := s.clearAlert.alert } := by
  unfold State.clearAlert
  split <;> rfl

/-- RELEASE/ clears the latch in RUN with no district LOCKED alone (R195). -/
theorem State.alert_clearAlert (s : State) :
    s.clearAlert.alert = if s.mode = .run ∧ s.anyDistrict .locked = false then false else s.alert := by
  unfold State.clearAlert
  split <;> rfl

theorem State.record_clearAlert (k : District) (s : State) : s.clearAlert.record k = s.record k := by
  rw [State.clearAlert_frame]
  rfl

theorem State.anyDistrict_clearAlert (st : DistrictState) (s : State) :
    s.clearAlert.anyDistrict st = s.anyDistrict st := by
  unfold State.anyDistrict
  simp only [State.record_clearAlert]

theorem State.steady_clearAlert (s : State) : s.Steady s.clearAlert := by
  rw [State.clearAlert_frame]
  exact ⟨fun _ => Iff.rfl, fun _ => Iff.rfl, rfl, rfl, rfl, rfl, rfl, rfl⟩

theorem State.releasePressed_eq (notStraps : s.mode ≠ .straps) (notSelfTest : s.mode ≠ .selfTest) :
    s.releasePressed = (s.eachDistrict State.release).clearAlert := by
  unfold State.releasePressed
  cases mode : s.mode with
  | straps => exact absurd mode notStraps
  | selfTest => exact absurd mode notSelfTest
  | listen | run | quiet | strapFault => rfl

/-- After RELEASE/ each district has the record of its release, with no place in QUEUED or RAMPING moved (R60). -/
theorem State.releasePressed_released (notStraps : s.mode ≠ .straps) (notSelfTest : s.mode ≠ .selfTest) :
    s.Steady s.releasePressed ∧ ∀ k : District, s.releasePressed.record k = s.recordAfterRelease k := by
  rw [State.releasePressed_eq notStraps notSelfTest]
  refine ⟨(State.steady_releaseAll s).trans (State.steady_clearAlert _), fun k => ?_⟩
  rw [State.record_clearAlert, State.record_releaseAll]

/-- The latch after RELEASE/: cleared in RUN with no district left LOCKED, and else set or as it was (R195). -/
theorem State.alert_releasePressed (notStraps : s.mode ≠ .straps) (notSelfTest : s.mode ≠ .selfTest) :
    (s.mode = .run → s.releasePressed.anyDistrict .locked = false → s.releasePressed.alert = false) ∧
      (¬ (s.mode = .run ∧ s.releasePressed.anyDistrict .locked = false) →
        s.releasePressed.alert = true ∨ s.releasePressed.alert = s.alert) := by
  have mode : (s.eachDistrict State.release).mode = s.mode := (State.steady_releaseAll s).mode
  have locked : s.releasePressed.anyDistrict .locked = (s.eachDistrict State.release).anyDistrict .locked := by
    rw [State.releasePressed_eq notStraps notSelfTest, State.anyDistrict_clearAlert]
  rw [locked, State.releasePressed_eq notStraps notSelfTest, State.alert_clearAlert, mode]
  refine ⟨fun run none => if_pos ⟨run, none⟩, fun stays => ?_⟩
  rw [if_neg stays]
  exact State.alert_releaseAll s

theorem exec_debounceExpiry_release (held : (s.qualifier .release).held.isSome = true)
    (settled : (s.qualifier .release).settled = some .high) (low : (s.qualifier .release).raw = .low) :
    exec (.debounceExpiry .release) s =
      .next (State.followUp s (s.setQualifier .release (s.qualifier .release).expired).releasePressed) := by
  rw [exec_debounceExpiry, State.debounceExpiry_held held, settled, low]
  rfl

/-! ### The districts that a frame names -/

/-- The WHERE of an HD or RL names a district (R124). -/
abbrev NamesDistrict (loc : Where) (k : District) : Prop := loc.all = true ∨ loc.district = k

/-- A district that is named takes its own step, from its own record and relay. -/
theorem State.addressed_named {loc : Where} {f : District → State → State}
    (only : ∀ (k : District) (s : State), State.onlyDistrict k s (f k s)) (named : NamesDistrict loc k) (s : State) :
    ∃ u : State, u.record k = s.record k ∧ u.engine k = s.engine k ∧ u.relay k = s.relay k ∧
      State.sameOutsideDistricts s u ∧ (s.addressed loc f).record k = (f k u).record k ∧
      (s.addressed loc f).engine k = (f k u).engine k ∧ (s.addressed loc f).relay k = (f k u).relay k := by
  unfold State.addressed
  split
  · exact State.record_eachDistrict only s k
  · rename_i one
    have same : loc.district = k := named.resolve_left one
    rw [same]
    exact ⟨s, rfl, rfl, rfl, rfl, rfl, rfl, rfl⟩

/-- A district that is not named is not touched. -/
theorem State.addressed_unnamed {loc : Where} {f : District → State → State}
    (only : ∀ (k : District) (s : State), State.onlyDistrict k s (f k s)) (unnamed : ¬ NamesDistrict loc k) (s : State) :
    (s.addressed loc f).record k = s.record k := by
  unfold State.addressed
  rw [if_neg fun all => unnamed (Or.inl all)]
  exact ((only loc.district s).1 k fun same => unnamed (Or.inr same.symm)).1

/-- What the step of every district keeps, an addressed frame keeps. -/
theorem State.addressed_keeps {loc : Where} {f : District → State → State} {P : State → Prop}
    (only : ∀ (k : District) (s : State), State.onlyDistrict k s (f k s))
    (keeps : ∀ (k : District) (s : State), P s → P (f k s)) (start : P s) : P (s.addressed loc f) := by
  unfold State.addressed
  split
  · exact State.eachDistrict_keeps only keeps start
  · exact keeps _ s start

/-- What the step of a named district brings about, and every step keeps, holds after an addressed frame. -/
theorem State.addressed_reaches {loc : Where} {f : District → State → State} {P : State → Prop}
    (only : ∀ (k : District) (s : State), State.onlyDistrict k s (f k s))
    (keeps : ∀ (j : District) (s : State), P s → P (f j s)) (named : NamesDistrict loc k) (s : State)
    (makes : ∀ u : State, u.record k = s.record k → u.relay k = s.relay k → P (f k u)) : P (s.addressed loc f) := by
  unfold State.addressed
  split
  · exact State.eachDistrict_reaches k only keeps s makes
  · rename_i one
    have same : loc.district = k := named.resolve_left one
    rw [same]
    exact makes s rfl rfl

/-! ### Accepted HD and RL frames -/

/-- A frame that completes leaves all but the line and the assembly (R98). -/
theorem State.frameComplete_eq (data : Byte) (s : State) :
    ∃ (l : LineInterface) (h : Handler), s.frameComplete data = { s with line := l, handler := h } :=
  ⟨_, _, State.onlyLine_frameComplete data s⟩

theorem State.unmoved_withLine (s : State) (l : LineInterface) (h : Handler) :
    s.Unmoved { s with line := l, handler := h } := ⟨rfl, rfl, rfl, rfl, rfl⟩

/-- An HD or RL for the station is accepted in LISTEN, RUN and QUIET (R117, R119). -/
theorem State.peerFrame_targeted {f : Frame} {c : StationConfig}
    (mode : s.mode = .listen ∨ s.mode = .run ∨ s.mode = .quiet) (config : s.config = some c) (peer : f.sender ≠ c.id)
    (target : f.post.data.toNat = c.id.val ∨ f.post.data.toNat = 255)
    (kind : f.post.kind = .hd ∨ f.post.kind = .rl) :
    ∃ (l : LineInterface) (h : Handler), s.peerFrame f =
      State.followUp s (({ s with line := l, handler := h } : State).dispatchPeer f) := by
  have assembles : s.assembles = true := by
    rcases mode with h | h | h <;> simp [State.assembles, h]
  have targeted : targets c.id f.post.data = true := by
    rcases target with h | h <;> simp [targets, h, Config.IDALL]
  have accepted : s.judge f = .accepted := by
    rw [State.judge_configured config peer mode]
    unfold judgeKind
    rcases kind with h | h <;> rw [h] <;> exact if_pos targeted
  obtain ⟨l, h, done⟩ := State.frameComplete_eq f.post.data s
  exact ⟨l, h, by rw [State.peerFrame_accepted assembles accepted, done]⟩

end Sys2Proof.Machine

open Sys2Proof Sys2Proof.Machine

/-- Settles O47: each district named is released, and no place in QUEUED or RAMPING moves. -/
theorem releaseFrame : Obligations.ReleaseFrame := by
  intro s b c k mode config peer target owed
  obtain ⟨l, h, next⟩ := State.peerFrame_targeted (f := Frame.ofBody .rl b) mode config peer target (Or.inr rfl)
  let v : State := { s with line := l, handler := h }
  let m : State := v.addressed b.loc State.release
  have steady : s.Steady m := State.addressed_keeps (P := s.Steady) State.onlyDistrict_release
    (fun j u kept => kept.trans (State.steady_release j u)) (State.unmoved_withLine s l h).steady
  have follows : State.followUp s m = m := steady.followUp_of_noStartOwed owed
  have released (named : NamesDistrict b.loc k) : m.record k = s.recordAfterRelease k := by
    obtain ⟨u, record, _, relay, _, after, _⟩ := State.addressed_named State.onlyDistrict_release named v
    rw [after, State.record_release]
    exact State.recordAfterRelease_congr record relay
  have latched (alert : s.alert = true) : m.alert = true :=
    State.addressed_keeps (P := fun u => u.alert = true) State.onlyDistrict_release State.alert_release_keeps alert
  refine ⟨m, congrArg Host.Outcome.next (next.trans follows), fun named locked hold => ?_,
    fun named locked unheld agrees => ?_, fun named locked unheld disagrees => ?_,
    fun named halted settled cls => ?_, fun kept => ?_, latched, steady.halt, steady.mode⟩
  · rw [released named, State.recordAfterRelease_held locked hold]
    exact ⟨rfl, rfl, rfl⟩
  · rw [released named, State.recordAfterRelease_unheld locked unheld, agrees]
    exact ⟨rfl, rfl, rfl, rfl⟩
  · refine ⟨?_, ?_, ?_, ?_⟩
    case refine_4 =>
      refine State.addressed_reaches (P := fun u => u.alert = true) State.onlyDistrict_release
        State.alert_release_keeps named v fun u record relay => ?_
      have same : u.relayDisagrees k = s.relayDisagrees k :=
        State.relayDisagrees_congr (congrArg DistrictRecord.reversing record) relay
      rw [State.alert_release, same, record]
      exact Bool.or_eq_true_iff.mpr (Or.inl (decide_eq_true ⟨locked, unheld, disagrees⟩))
    all_goals
      rw [released named, State.recordAfterRelease_unheld locked unheld, disagrees]
      rfl
  · rw [released named, State.recordAfterRelease_halted halted settled cls]
  · by_cases named : NamesDistrict b.loc k
    · rw [released named]
      obtain ⟨notLocked, notClass⟩ := kept.resolve_left (not_not_intro named)
      exact State.recordAfterRelease_other notLocked notClass
    · exact State.addressed_unnamed State.onlyDistrict_release named v

/-- Settles O21: the four districts are released, the latch is asked for, and at most a QUEUED district of QUIET starts
in the same step. -/
theorem releasePress : Obligations.ReleasePress := by
  intro s held settled low notStraps notSelfTest
  have next := exec_debounceExpiry_release held settled low
  have unmoved : s.Unmoved (s.setQualifier .release (s.qualifier .release).expired) :=
    State.unmoved_setQualifier s .release _
  obtain ⟨released, record⟩ := State.releasePressed_released
    (s := s.setQualifier .release (s.qualifier .release).expired) notStraps notSelfTest
  obtain ⟨clears, keeps⟩ := State.alert_releasePressed
    (s := s.setQualifier .release (s.qualifier .release).expired) notStraps notSelfTest
  have record (k : District) : (s.setQualifier .release (s.qualifier .release).expired).releasePressed.record k =
      s.recordAfterRelease k := record k
  have steady := unmoved.steady.trans released
  generalize (s.setQualifier .release (s.qualifier .release).expired).releasePressed = a at *
  rw [steady.followUp] at next
  have unstarted (k : District) (notQueued : (s.recordAfterRelease k).state ≠ .queued) :
      a.directStart.record k = s.recordAfterRelease k := by
    rw [← record] at notQueued ⊢
    exact (State.record_directStart a k).resolve_right fun starts => notQueued starts.2.1
  have unstartedOutside (notQuiet : s.mode ≠ .quiet) : a.directStart = a :=
    State.directStart_outside_quiet (by rwa [steady.mode])
  have outside := State.sameOutside_directStart a
  refine ⟨a.directStart, next, fun k => ⟨fun locked hold => ?_, fun locked unheld agrees => ?_,
    fun locked unheld disagrees => ?_, fun halted notPending cls => ?_, fun halted kept => ?_,
    fun notLocked notHalted starts => ?_⟩, fun run stays => ?_, fun run gone => ?_, fun notRun alert => ?_,
    (State.mode_of_sameOutside outside).trans steady.mode, (State.halt_of_sameOutside outside).trans steady.halt⟩
  · have after := State.recordAfterRelease_held locked hold
    rw [unstarted k (by rw [after]; exact nofun), after]
    exact ⟨rfl, rfl⟩
  · have after := State.recordAfterRelease_unheld locked unheld
    rw [agrees] at after
    rw [unstarted k (by rw [after]; exact nofun), after]
    exact ⟨rfl, rfl, rfl⟩
  · have after := State.recordAfterRelease_unheld locked unheld
    rw [disagrees] at after
    rw [unstarted k (by rw [after]; exact nofun), after]
    exact ⟨rfl, rfl, rfl⟩
  · have after := State.recordAfterRelease_halted halted notPending cls
    rw [unstarted k (by rw [after]; exact fun queued => nomatch halted.symm.trans queued), after]
  · have after : s.recordAfterRelease k = s.record k := by
      refine State.recordAfterRelease_other (by rw [halted]; decide) fun both => ?_
      exact kept.elim (fun isPending => nomatch isPending.symm.trans both.2.1) fun other => other both.2.2
    rw [unstarted k (by rw [after, halted]; decide), after]
  · have after : s.recordAfterRelease k = s.record k :=
      State.recordAfterRelease_other notLocked fun both => notHalted both.1
    rcases starts with notQuiet | notQueued | owed
    · rw [unstartedOutside notQuiet, record, after]
    · rw [unstarted k (by rw [after]; exact notQueued), after]
    · rw [State.directStart_of_noStartOwed (steady.noStartOwed owed), record, after]
  · rw [State.alert_directStart]
    refine keeps fun both => ?_
    obtain ⟨k, locked⟩ := stays
    rw [unstartedOutside (by rw [run]; decide)] at locked
    have found : a.anyDistrict .locked = true :=
      List.any_eq_true.mpr ⟨k, by fin_cases k <;> decide, beq_iff_eq.mpr locked⟩
    exact absurd (found.symm.trans both.2) (by decide)
  · rw [unstartedOutside (by rw [run]; decide)] at gone ⊢
    exact clears run (State.anyDistrict_false gone)
  · rw [State.alert_directStart]
    exact (keeps fun both => notRun both.1).elim id fun same => same.trans alert

end

section
/-! PROOFS. The hold (R61 to R64): what its setting takes from the queue and the ramp list, and what the unit does
behind the districts' steps. -/

namespace Sys2Proof.Machine

variable {k : District} {s t u : State}

/-! ### What follows the districts' steps, as a district sees it that is not QUEUED -/

theorem State.followUp_cases (before s : State) :
    State.followUp before s = s.directStart ∨ State.followUp before s = s.chooseAgain.directStart := by
  unfold State.followUp
  dsimp only
  split
  · exact Or.inl rfl
  · exact Or.inr rfl

/-- The district chosen is QUEUED (R155). -/
theorem State.queued_of_choice {j : District} (h : s.choice = some j) : (s.record j).state = .queued := by
  unfold State.choice at h
  split at h
  · split at h
    · rename_i stays
      cases h
      exact stays.1
    · exact longestQueued_queued h
  · exact longestQueued_queued h

/-- A choice made again posts the RB of a QUEUED district, and no other frame (R155, R156). -/
theorem State.mem_chooseAgain {x : Entry} (h : x ∈ s.chooseAgain.queue) :
    x ∈ s.queue ∨ x.frame.kind = .rb ∧ (s.record x.frame.loc.district).state = .queued := by
  by_cases run : s.mode = .run
  · cases chosen : s.choice with
    | none =>
      have same : s.chooseAgain.queue = s.queue := by
        unfold State.chooseAgain
        rw [if_pos run, chosen]
        rfl
      exact Or.inl (same ▸ h)
    | some j =>
      by_cases offered : s.ramp.rbDistrict = some j
      · rw [State.chooseAgain_of_offered run chosen offered] at h
        exact Or.inl h
      · rw [State.chooseAgain_posts run chosen offered] at h
        refine (State.mem_post h).imp_right fun frame => ?_
        rw [frame]
        exact ⟨rfl, State.queued_of_choice chosen⟩
  · rw [State.chooseAgain_outside_run run] at h
    exact Or.inl h

theorem State.mem_directStart {x : Entry} (h : x ∈ s.directStart.queue) :
    x ∈ s.queue ∨ x.phase = .onLine .withdrawn := by
  unfold State.directStart at h
  split at h
  · split at h
    · rename_i longest
      rw [(State.startRamp_of_queued (longestQueued_queued longest)).1] at h
      exact State.mem_withdraw h
    · exact Or.inl h
  · exact Or.inl h

/-- Every entry behind a command's steps stood there, is withdrawn, or is the RB of a QUEUED district. -/
theorem State.mem_followUp {before : State} {x : Entry} (h : x ∈ (State.followUp before s).queue) :
    x ∈ s.queue ∨ x.phase = .onLine .withdrawn ∨
      x.frame.kind = .rb ∧ (s.record x.frame.loc.district).state = .queued := by
  rcases State.followUp_cases before s with same | same <;> rw [same] at h
  · exact (State.mem_directStart h).imp_right Or.inl
  · rcases State.mem_directStart h with h | h
    · exact (State.mem_chooseAgain h).imp_right Or.inr
    · exact Or.inr (Or.inl h)

theorem State.hasOwnEntry_congr (list : t.ramp.list = s.ramp.list) (k : District) : t.hasOwnEntry k = s.hasOwnEntry k := by
  unfold State.hasOwnEntry
  rw [list]

/-- A district that is not QUEUED keeps its record, engine, relay and own entry through what follows (R155, R161). -/
theorem State.followUp_spares (before : State) (notQueued : (s.record k).state ≠ .queued) :
    (State.followUp before s).record k = s.record k ∧ (State.followUp before s).engine k = s.engine k ∧
      (State.followUp before s).relay k = s.relay k ∧ (State.followUp before s).hasOwnEntry k = s.hasOwnEntry k := by
  rcases State.followUp_cases before s with same | same <;> rw [same]
  · have starts := State.startsOther_directStart notQueued
    exact ⟨starts.record, starts.engine, starts.relay, starts.ownEntry⟩
  · have starts := State.startsOther_directStart (s := s.chooseAgain) (k := k)
      (by rw [State.record_chooseAgain]; exact notQueued)
    rw [starts.record, starts.engine, starts.relay, starts.ownEntry, State.record_chooseAgain]
    refine ⟨rfl, ?_, ?_, State.hasOwnEntry_congr ?_ k⟩ <;> rw [State.chooseAgain_frame] <;> rfl

/-! ### The setting of a hold -/

/-- The record of a district that a hold takes to DARK, before the move (R61). -/
def DistrictRecord.marked (d : DistrictRecord) : DistrictRecord :=
  { d with hold := true, n := 0, pardoned := if d.state = .cooling then false else d.pardoned }

/-- The three states that a hold does not move (R62, R63). -/
abbrev DistrictRecord.stays (d : DistrictRecord) : Prop :=
  d.state = .halted ∨ d.state = .switching ∨ d.state = .dark

theorem State.holdSet_stays (stays : (s.record k).stays) : s.holdSet k = s.setRecord k (s.record k).held := by
  unfold State.holdSet DistrictRecord.held
  rcases stays with h | h | h <;> simp only [h, State.modRecord_eq]

/-- A hold takes any other district to DARK, and the RE of a cut ramp is posted (R57, R61). -/
theorem State.holdSet_moves (moves : ¬ (s.record k).stays) :
    s.holdSet k =
      if (s.record k).state = .ramping then ((s.setRecord k (s.record k).marked).enterDark k).postRe k
      else (s.setRecord k (s.record k).marked).enterDark k := by
  unfold State.holdSet DistrictRecord.marked
  cases state : (s.record k).state with
  | halted => exact absurd (Or.inl state) moves
  | switching => exact absurd (Or.inr (Or.inl state)) moves
  | dark => exact absurd (Or.inr (Or.inr state)) moves
  | live | cooling | ramping | probing | queued | contend | locked => simp [state]

theorem DistrictRecord.held_moves {d : DistrictRecord} (moves : ¬ d.stays) : d.held = d.marked.toDark := by
  unfold DistrictRecord.held DistrictRecord.marked
  cases state : d.state with
  | halted => exact absurd (Or.inl state) moves
  | switching => exact absurd (Or.inr (Or.inl state)) moves
  | dark => exact absurd (Or.inr (Or.inr state)) moves
  | live | cooling | ramping | probing | queued | contend | locked => simp

/-- What a departure takes along is read of the state left. -/
theorem State.queue_depart_setRecord {d : DistrictRecord} (state : d.state = (s.record k).state) :
    ((s.setRecord k d).depart k).queue = (s.depart k).queue := by
  unfold State.depart
  rw [State.record_setRecord_self, state]
  cases (s.record k).state <;> rfl

theorem State.relay_holdSet (k : District) (s : State) : (s.holdSet k).relay k = s.relay k := by
  by_cases stays : (s.record k).stays
  · rw [State.holdSet_stays stays]
    rfl
  · rw [State.holdSet_moves stays]
    split
    · exact (State.relay_post _ _ k).trans (State.relay_moveOff k k DistrictRecord.toDark _)
    · exact State.relay_moveOff k k DistrictRecord.toDark _

theorem State.engine_holdSet (moves : ¬ (s.record k).stays) : (s.holdSet k).engine k = Engine.cleared := by
  rw [State.holdSet_moves moves]
  split
  · exact (State.engine_post _ _ k).trans (State.engine_moveOff k DistrictRecord.toDark _)
  · exact State.engine_moveOff k DistrictRecord.toDark _

/-- The queue behind a hold is what the departure leaves of it, with the RE of a cut ramp (R57, R61, R137). -/
theorem State.mem_holdSet_depart {x : Entry} (h : x ∈ (s.holdSet k).queue) (notRe : x.frame.kind ≠ .re)
    (moves : ¬ (s.record k).stays) : x ∈ (s.depart k).queue := by
  have moved : ((s.setRecord k (s.record k).marked).enterDark k).queue = (s.depart k).queue :=
    (State.queue_moveOff k DistrictRecord.toDark _).trans (State.queue_depart_setRecord rfl)
  rw [State.holdSet_moves moves] at h
  split at h
  · rw [← moved]
    exact (State.mem_post h).resolve_right fun frame => notRe (congrArg Post.kind frame)
  · rw [← moved]
    exact h

theorem State.mem_holdSet {x : Entry} (h : x ∈ (s.holdSet k).queue) (notRe : x.frame.kind ≠ .re) :
    x ∈ s.queue ∨ x.phase = .onLine .withdrawn := by
  by_cases stays : (s.record k).stays
  · rw [State.holdSet_stays stays] at h
    exact Or.inl h
  · exact State.mem_depart (State.mem_holdSet_depart h notRe stays)

/-- A hold in CONTEND withdraws the FI of the district, and one in QUEUED its RB (R52, R61, R137). -/
theorem State.withdrawn_holdSet {kind : Kind}
    (pairs : kind = .fi ∧ (s.record k).state = .contend ∨ kind = .rb ∧ (s.record k).state = .queued) {x : Entry}
    (h : x ∈ (s.holdSet k).queue) (hk : x.frame.kind = kind) (hd : x.frame.loc.district = k) :
    x.phase = .onLine .withdrawn := by
  rcases pairs with ⟨rfl, state⟩ | ⟨rfl, state⟩
  · have left := State.mem_holdSet_depart h (by rw [hk]; decide) (by simp [DistrictRecord.stays, state])
    rw [State.depart_of_contend state] at left
    exact State.withdraw_gone left hk hd
  · have left := State.mem_holdSet_depart h (by rw [hk]; decide) (by simp [DistrictRecord.stays, state])
    rw [State.depart_of_queued state] at left
    exact State.withdraw_gone (s := s) (kind := .rb) left hk hd

theorem State.list_holdSet (moves : ¬ (s.record k).stays) : (s.holdSet k).ramp.list = (s.depart k).ramp.list := by
  have moved : ((s.setRecord k (s.record k).marked).enterDark k).ramp = (s.depart k).ramp :=
    (State.ramp_moveOff k DistrictRecord.toDark _).trans (State.ramp_depart_setRecord rfl)
  rw [State.holdSet_moves moves]
  split
  · rw [State.postRe, State.list_post, moved]
  · rw [moved]

/-- A hold adds nothing to the ramp list (R61, R149). -/
theorem State.hasOwnEntry_holdSet_keeps (j : District) (h : s.hasOwnEntry k = false) :
    (s.holdSet j).hasOwnEntry k = false := by
  by_cases stays : (s.record j).stays
  · rw [State.holdSet_stays stays]
    exact h
  · unfold State.hasOwnEntry at h ⊢
    rw [State.list_holdSet stays, List.any_eq_false]
    rw [List.any_eq_false] at h
    exact fun e he => h e ((State.ownCut_depart j s).sub e he)

/-- A ramp that goes dark leaves the queue and the RB district as they were. -/
theorem State.offered_enterDark {d : DistrictRecord} (ramping : (s.record k).state = .ramping)
    (state : d.state = (s.record k).state) :
    ((s.setRecord k d).enterDark k).queue = s.queue ∧
      ((s.setRecord k d).enterDark k).ramp.rbDistrict = s.ramp.rbDistrict := by
  unfold State.enterDark
  rw [State.queue_moveOff, State.queue_depart_setRecord state, State.ramp_moveOff, State.ramp_depart_setRecord state,
    State.queue_depart (by rw [ramping]; decide) (by rw [ramping]; decide),
    State.rbDistrict_depart (by rw [ramping]; decide)]
  exact ⟨rfl, rfl⟩

/-- A posting reads the mode, the queue and the RB district. -/
theorem State.offered_post (mode : t.mode = s.mode) (queue : t.queue = s.queue)
    (rbDistrict : t.ramp.rbDistrict = s.ramp.rbDistrict) (p : Post) :
    (t.post p).queue = s.queueWith p ∧ (t.post p).ramp.rbDistrict = (s.post p).ramp.rbDistrict := by
  rw [State.queue_post]
  exact ⟨State.queueWith_congr mode queue p, State.rbDistrict_post_congr mode queue rbDistrict p⟩

/-- The RE of a ramp that a hold cuts is posted to the queue as it was (R57). -/
theorem State.holdSet_ramping (ramping : (s.record k).state = .ramping) :
    (s.holdSet k).queue = s.queueWith (s.frameFor .re k 0) ∧
      (s.holdSet k).ramp.rbDistrict = (s.post (s.frameFor .re k 0)).ramp.rbDistrict := by
  have moves : ¬ (s.record k).stays := by simp [DistrictRecord.stays, ramping]
  have frame : s.rePost k = s.frameFor .re k 0 := rfl
  obtain ⟨queue, rbDistrict⟩ := State.offered_enterDark (d := (s.record k).marked) ramping rfl
  have only : State.onlyDistrict k s ((s.setRecord k (s.record k).marked).enterDark k) :=
    State.onlyDistrict_trans (State.onlyDistrict_setRecord k _ s) (State.onlyDistrict_enterDark k _)
  rw [State.holdSet_moves moves, if_pos ramping, State.postRe, State.rePost_congr (State.config_of_sameOutside only.2),
    frame]
  exact State.offered_post (State.mode_of_sameOutside only.2) queue rbDistrict _

/-! ### The clearing of a hold -/

theorem State.recordAfterHoldClear_unheld (unheld : (s.record k).hold = false) :
    s.recordAfterHoldClear k = s.record k := by
  unfold State.recordAfterHoldClear
  exact if_neg (Bool.eq_false_iff.mp unheld)

theorem State.recordAfterHoldClear_dark (hold : (s.record k).hold = true) (dark : (s.record k).state = .dark) :
    s.recordAfterHoldClear k = { s.record k with hold := false, n := 0 }.probesOrLocks (s.relayDisagrees k) := by
  unfold State.recordAfterHoldClear
  dsimp only
  rw [if_pos hold, if_pos dark]

theorem State.recordAfterHoldClear_halted (hold : (s.record k).hold = true) (halted : (s.record k).state = .halted)
    (settled : (s.record k).confirmPending = false) (cls : (s.record k).returnClass = .dark) :
    s.recordAfterHoldClear k = { s.record k with hold := false, returnClass := .probe } := by
  unfold State.recordAfterHoldClear
  dsimp only
  rw [if_pos hold, if_neg (by rw [halted]; decide), if_pos ⟨halted, settled, cls⟩]

theorem State.recordAfterHoldClear_other (hold : (s.record k).hold = true) (notDark : (s.record k).state ≠ .dark)
    (notHalted : (s.record k).state ≠ .halted) :
    s.recordAfterHoldClear k = { s.record k with hold := false } := by
  unfold State.recordAfterHoldClear
  dsimp only
  rw [if_pos hold, if_neg notDark, if_neg fun both => notHalted both.1]

theorem State.hold_recordAfterHoldClear (k : District) (s : State) : (s.recordAfterHoldClear k).hold = false := by
  unfold State.recordAfterHoldClear
  dsimp only
  split
  · split
    · unfold DistrictRecord.probesOrLocks
      split <;> rfl
    · split <;> rfl
  · rename_i unheld
    exact Bool.eq_false_iff.mpr unheld

theorem State.recordAfterHoldClear_congr (record : u.record k = s.record k) (relay : u.relay k = s.relay k) :
    u.recordAfterHoldClear k = s.recordAfterHoldClear k := by
  unfold State.recordAfterHoldClear
  rw [record, State.relayDisagrees_congr (by rw [record]) relay]

/-! ### An accepted HD -/

/-- The step of each district that an HD names (R124). -/
def holdStep (set : Bool) : District → State → State := if set then State.holdSet else State.holdClear

theorem State.onlyDistrict_holdStep (set : Bool) (k : District) (s : State) :
    State.onlyDistrict k s (holdStep set k s) := by
  cases set
  · exact State.onlyDistrict_holdClear k s
  · exact State.onlyDistrict_holdSet k s

theorem exec_hdFrame {b : FrameBody} {c : StationConfig}
    (mode : s.mode = .listen ∨ s.mode = .run ∨ s.mode = .quiet) (config : s.config = some c) (peer : b.sender ≠ c.id)
    (target : b.data.toNat = c.id.val ∨ b.data.toNat = 255) :
    ∃ (l : LineInterface) (h : Handler), exec (.hdFrame b) s =
      .next (State.followUp s (({ s with line := l, handler := h } : State).addressed b.loc (holdStep b.loc.set))) := by
  obtain ⟨l, h, next⟩ := State.peerFrame_targeted (f := Frame.ofBody .hd b) mode config peer target (Or.inl rfl)
  exact ⟨l, h, congrArg Host.Outcome.next next⟩

theorem State.sameOutside_addressed {loc : Where} {f : District → State → State}
    (only : ∀ (k : District) (s : State), State.onlyDistrict k s (f k s)) (s : State) :
    State.sameOutsideDistricts s (s.addressed loc f) :=
  State.addressed_keeps (P := State.sameOutsideDistricts s) only
    (fun k u same => State.sameOutsideDistricts_trans same (only k u).2) (State.sameOutsideDistricts_refl s)

/-- What the setting of a hold withdraws stays withdrawn through the steps of the other districts and what follows
them (R61, R137). -/
theorem State.withdrawn_held {loc : Where} {before : State} {kind : Kind} (named : NamesDistrict loc k)
    (pairs : kind = .fi ∧ (s.record k).state = .contend ∨ kind = .rb ∧ (s.record k).state = .queued) :
    ∀ x ∈ (State.followUp before (s.addressed loc State.holdSet)).queue, x.frame.kind = kind →
      x.frame.loc.district = k → x.phase = .onLine .withdrawn := by
  have notRe : kind ≠ .re := by
    rcases pairs with ⟨rfl, _⟩ | ⟨rfl, _⟩ <;> decide
  have held : ∀ x ∈ (s.addressed loc State.holdSet).queue, x.frame.kind = kind → x.frame.loc.district = k →
      x.phase = .onLine .withdrawn := by
    refine State.addressed_reaches (P := fun u => ∀ x ∈ u.queue, x.frame.kind = kind → x.frame.loc.district = k →
      x.phase = .onLine .withdrawn) State.onlyDistrict_holdSet ?_ named s ?_
    · intro j u kept x hx hk hd
      exact (State.mem_holdSet hx (by rw [hk]; exact notRe)).elim (fun there => kept x there hk hd) id
    · intro u record _ x hx
      exact State.withdrawn_holdSet (by rwa [record]) hx
  have moves : ¬ (s.record k).stays := by
    rcases pairs with ⟨_, h⟩ | ⟨_, h⟩ <;> simp [DistrictRecord.stays, h]
  have dark : ((s.addressed loc State.holdSet).record k).state ≠ .queued := by
    obtain ⟨u, record, _, _, _, after, _⟩ := State.addressed_named State.onlyDistrict_holdSet named s
    rw [after, State.record_holdSet, record, DistrictRecord.held_moves moves]
    exact nofun
  intro x hx hk hd
  rcases State.mem_followUp hx with there | gone | ⟨_, queued⟩
  · exact held x there hk hd
  · exact gone
  · rw [hd] at queued
    exact absurd queued dark

theorem DistrictRecord.held_dark {d : DistrictRecord} (dark : d.state = .dark) : d.held = { d with hold := true, n := 0 } := by
  unfold DistrictRecord.held
  rw [dark]

theorem DistrictRecord.held_switching {d : DistrictRecord} (switching : d.state = .switching) :
    d.held = { d with hold := true } := by
  unfold DistrictRecord.held
  rw [switching]

theorem DistrictRecord.held_halted {d : DistrictRecord} (halted : d.state = .halted) :
    d.held = { d with hold := true, n := 0, returnClass := if d.confirmPending then d.returnClass else .dark } := by
  unfold DistrictRecord.held
  rw [halted]

/-- A hold that is set leaves the last fault, makes n 0 but in SWITCHING, and puts no district in QUEUED (R61, R62). -/
theorem DistrictRecord.held_facts (d : DistrictRecord) :
    d.held.hold = true ∧ d.held.lastFault = d.lastFault ∧ (d.state ≠ .switching → d.held.n = 0) ∧
      d.held.state ≠ .queued := by
  by_cases stays : d.stays
  · rcases stays with h | h | h
    · rw [DistrictRecord.held_halted h]
      exact ⟨rfl, rfl, fun _ => rfl, by rw [h]; decide⟩
    · rw [DistrictRecord.held_switching h]
      exact ⟨rfl, rfl, fun moved => absurd h moved, by rw [h]; decide⟩
    · rw [DistrictRecord.held_dark h]
      exact ⟨rfl, rfl, fun _ => rfl, by rw [h]; decide⟩
  · rw [DistrictRecord.held_moves stays]
    exact ⟨rfl, rfl, fun _ => rfl, nofun⟩

/-- The setting of a hold on each district named, as one of them sees it (R61 to R63, R124). -/
theorem State.addressed_holdSet {loc : Where} (named : NamesDistrict loc k) (s : State) :
    (s.addressed loc State.holdSet).record k = (s.record k).held ∧
      (s.addressed loc State.holdSet).relay k = s.relay k ∧
      (¬ (s.record k).stays → (s.addressed loc State.holdSet).engine k = Engine.cleared) := by
  obtain ⟨u, record, _, relay, _, recordAfter, engineAfter, relayAfter⟩ :=
    State.addressed_named State.onlyDistrict_holdSet named s
  refine ⟨?_, ?_, fun moves => ?_⟩
  · rw [recordAfter, State.record_holdSet, record]
  · rw [relayAfter, State.relay_holdSet, relay]
  · rw [engineAfter]
    exact State.engine_holdSet (by rwa [record])

/-- A ramp that a hold cuts has no own entry left (R61, R149). -/
theorem State.hasOwnEntry_addressed_holdSet {loc : Where} (named : NamesDistrict loc k)
    (ramping : (s.record k).state = .ramping) : (s.addressed loc State.holdSet).hasOwnEntry k = false := by
  refine State.addressed_reaches (P := fun u => u.hasOwnEntry k = false) State.onlyDistrict_holdSet
    (fun j u => State.hasOwnEntry_holdSet_keeps j) named s fun u record _ => ?_
  have cut : (u.record k).state = .ramping := by rwa [record]
  exact State.hasOwnEntry_of_departed cut (State.list_holdSet (by simp [DistrictRecord.stays, cut]))

/-- The hold of a single district posts the RE of its ramp (R57). -/
theorem State.places_holdSet {v : State} (ok : s.QueueOk) (unmoved : s.Unmoved v) (queue : v.queue = s.queue)
    (ramping : (s.record k).state = .ramping) :
    s.places (s.frameFor .re k 0) (State.followUp s (v.holdSet k)) := by
  have record : v.record k = s.record k := congrArg (fun q => PerDistrict.get q k) unmoved.districts
  have frame : v.frameFor .re k 0 = s.frameFor .re k 0 := State.rePost_congr unmoved.config k
  obtain ⟨posted, told⟩ := State.holdSet_ramping (s := v) (k := k) (by rwa [record])
  obtain ⟨queueSame, rbSame⟩ := State.offered_post unmoved.mode queue
    (congrArg RampUnit.rbDistrict unmoved.ramp) (s.frameFor .re k 0)
  have only := State.onlyDistrict_holdSet k v
  rw [frame] at posted told
  rw [State.queue_post] at queueSame
  refine State.places_of_startsOther ok ((State.mode_of_sameOutside only.2).trans unmoved.mode)
    (posted.trans queueSame) (told.trans rbSame)
    (State.startsOther_followUp unmoved only (by rw [ramping]; decide) ?_)
  rw [State.record_holdSet]
  exact (v.record k).held_facts.2.2.2

/-- The clearing of the hold of each district named, as one of them sees it (R64, R124). -/
theorem State.addressed_holdClear {loc : Where} (named : NamesDistrict loc k) (s : State) :
    (s.addressed loc State.holdClear).record k = s.recordAfterHoldClear k := by
  obtain ⟨u, record, _, relay, _, after, _, _⟩ := State.addressed_named State.onlyDistrict_holdClear named s
  rw [after, State.record_holdClear]
  exact State.recordAfterHoldClear_congr record relay

/-- What follows a command starts a ramp, and leaves the hold. -/
theorem State.hold_followUp (before s : State) (k : District) :
    ((State.followUp before s).record k).hold = (s.record k).hold := by
  rcases State.record_followUp before s k with same | ⟨_, _, started⟩
  · rw [same]
  · rw [started]
    rfl

end Sys2Proof.Machine

open Sys2Proof Sys2Proof.Machine

/-- Settles O46: each district named takes its own step, and what follows spares a district that is not QUEUED. -/
theorem holdFrame : Obligations.HoldFrame := by
  intro s b c k mode config peer target _ ok
  obtain ⟨l, h, next⟩ := exec_hdFrame mode config peer target
  have unmoved := State.unmoved_withLine s l h
  have queue : ({ s with line := l, handler := h } : State).queue = s.queue := rfl
  have record : ({ s with line := l, handler := h } : State).record k = s.record k := rfl
  have relay : ({ s with line := l, handler := h } : State).relay k = s.relay k := rfl
  generalize ({ s with line := l, handler := h } : State) = v at *
  have outside := State.sameOutside_addressed (loc := b.loc) (State.onlyDistrict_holdStep b.loc.set) v
  have follows := State.sameOutside_followUp s (v.addressed b.loc (holdStep b.loc.set))
  refine ⟨_, next, fun unnamed notQueued => ?_, fun named set => ?_, fun named clear unheld notQueued => ?_,
    fun named clear hold => ?_, 
    (State.halt_of_sameOutside follows).trans ((State.halt_of_sameOutside outside).trans unmoved.halt),
    (State.mode_of_sameOutside follows).trans ((State.mode_of_sameOutside outside).trans unmoved.mode)⟩
  · have same := State.addressed_unnamed (State.onlyDistrict_holdStep b.loc.set) unnamed v
    rw [(State.followUp_spares s (by rwa [same, record])).1, same, record]
  · have step : holdStep b.loc.set = State.holdSet := by rw [set]; rfl
    rw [step]
    obtain ⟨after, relayAfter, engineAfter⟩ := State.addressed_holdSet named v
    rw [record] at after engineAfter
    obtain ⟨holds, lastFault, n, notQueued⟩ := (s.record k).held_facts
    obtain ⟨recordAfter, engineLast, relayLast, ownLast⟩ :=
      State.followUp_spares (s := v.addressed b.loc State.holdSet) s (by rwa [after])
    rw [after] at recordAfter
    rw [State.gate_eq, recordAfter, engineLast, relayLast, ownLast]
    refine ⟨holds, lastFault, n, DistrictRecord.held_dark, fun notHalted notSwitching notDark => ?_,
      fun switching => ⟨DistrictRecord.held_switching switching, relayAfter.trans relay⟩, DistrictRecord.held_halted⟩
    have moves : ¬ (s.record k).stays := fun stays =>
      stays.elim notHalted fun rest => rest.elim notSwitching notDark
    rw [engineAfter moves, DistrictRecord.held_moves moves]
    refine ⟨rfl, rfl, rfl, rfl, rfl, rfl, rfl, rfl, fun cooling => if_pos cooling,
      fun ramping => ⟨State.hasOwnEntry_addressed_holdSet named (by rwa [record]), fun single => ?_⟩,
      fun contend => ?_, fun queued => ?_⟩
    · have one : b.loc.district = k := named.resolve_left (by rw [single]; decide)
      have alone : v.addressed b.loc State.holdSet = v.holdSet k := by
        unfold State.addressed
        rw [if_neg (by rw [single]; decide), one]
      rw [alone]
      exact State.places_holdSet ok unmoved queue ramping
    · exact State.withdrawn_held named (Or.inl ⟨rfl, by rwa [record]⟩)
    · exact State.withdrawn_held named (Or.inr ⟨rfl, by rwa [record]⟩)
  · have step : holdStep b.loc.set = State.holdClear := by rw [clear]; rfl
    have same : v.recordAfterHoldClear k = s.record k :=
      (State.recordAfterHoldClear_unheld (by rwa [record])).trans record
    rw [step, (State.followUp_spares s (by rwa [State.addressed_holdClear named, same])).1,
      State.addressed_holdClear named, same]
  · have step : holdStep b.loc.set = State.holdClear := by rw [clear]; rfl
    have after : (v.addressed b.loc State.holdClear).record k = s.recordAfterHoldClear k :=
      (State.addressed_holdClear named v).trans (State.recordAfterHoldClear_congr record relay)
    have spared (notQueued : (s.recordAfterHoldClear k).state ≠ .queued) :
        (State.followUp s (v.addressed b.loc State.holdClear)).record k = s.recordAfterHoldClear k := by
      rw [(State.followUp_spares s (by rwa [after])).1, after]
    rw [step]
    refine ⟨?_, fun dark agrees => ?_, fun dark disagrees => ?_, fun halted settled cls => ?_, fun other => ?_⟩
    · rw [State.hold_followUp, after, State.hold_recordAfterHoldClear]
    · have cleared := State.recordAfterHoldClear_dark hold dark
      rw [agrees] at cleared
      rw [spared (by rw [cleared]; exact nofun), cleared]
      exact ⟨rfl, rfl, rfl⟩
    · have cleared := State.recordAfterHoldClear_dark hold dark
      rw [disagrees] at cleared
      rw [spared (by rw [cleared]; exact nofun), cleared]
      exact ⟨rfl, rfl⟩
    · have cleared := State.recordAfterHoldClear_halted hold halted settled cls
      rw [spared (by rw [cleared]; exact fun queued => nomatch halted.symm.trans queued), cleared]
    · have cleared : s.recordAfterHoldClear k = { s.record k with hold := false } := by
        refine State.recordAfterHoldClear_other hold ?_ ?_ <;> rcases other with h | h <;> rw [h] <;> decide
      refine (spared ?_).trans cleared
      rw [cleared]
      rcases other with h | h <;> exact fun queued => nomatch h.symm.trans queued

end

section
/-! PROOFS. The confirm of a changeover (R79, R80, R86, R168): the flip that is counted, and where the district goes. -/

namespace Sys2Proof.Machine

variable {k : District} {s c t : State}

/-! ### What follows a command, seen from any district -/

theorem State.relay_directStart (s : State) (k : District) : s.directStart.relay k = s.relay k := by
  unfold State.directStart
  split
  · split
    · exact State.relay_moveOff _ k DistrictRecord.toRamping s
    · rfl
  · rfl

/-- What follows a command drives no relay. -/
theorem State.relay_followUp (before s : State) (k : District) : (State.followUp before s).relay k = s.relay k := by
  rcases State.followUp_cases before s with same | same <;> rw [same, State.relay_directStart]
  rw [State.chooseAgain_frame]
  rfl

/-- Outside QUIET what follows a command touches no district (R161). -/
theorem State.onlyDistrict_followUp_outside_quiet (before : State) (notQuiet : s.mode ≠ .quiet) (k : District) :
    State.onlyDistrict k s (State.followUp before s) := by
  have chosen := State.onlyDistrict_chooseAgain k s
  rcases State.followUp_cases before s with same | same <;> rw [same, State.directStart_outside_quiet]
  · exact ⟨fun _ _ => ⟨rfl, rfl, rfl⟩, rfl⟩
  · exact notQuiet
  · exact chosen
  · rwa [State.mode_of_sameOutside chosen.2]

/-! ### The flip that is counted -/

/-- The confirmed flip of district k is counted, and no more has come of it yet (R79). -/
structure State.FlipCounted (k : District) (s c : State) : Prop where
  unmoved : s.Unmoved c
  queue : c.queue = s.queue
  alert : c.alert = s.alert
  others : State.othersKept k s c
  relay : c.relay k =
    { s.relay k with
      cnf := (s.relay k).pol, confirm := none, flipCount := min ((s.relay k).flipCount + 1) 5,
      chatter := if (s.relay k).chatter.isNone then some 1000000 else (s.relay k).chatter }

theorem State.FlipCounted.record (counted : State.FlipCounted k s c) (j : District) : c.record j = s.record j :=
  congrArg (fun q => PerDistrict.get q j) counted.unmoved.districts

/-- Behind a confirm the relay stands where POLk commands it (R85). -/
theorem State.FlipCounted.agrees (counted : State.FlipCounted k s c) : c.relayDisagrees k = false := by
  unfold State.relayDisagrees
  rw [counted.relay]
  cases (s.relay k).pol <;> simp

/-- Where the confirm takes a SWITCHING district whose flip is counted (R62, R79, R80). -/
def State.afterConfirm (k : District) (c : State) : State :=
  if (c.record k).hold then (c.setRecord k { c.record k with n := 0 }).enterDark k
  else if Config.NCHATTER ≤ (c.relay k).flipCount then
    (c.setRelay k (c.relay k).chatterOver).countFailure k .chatter
  else (c.setRecord k { c.record k with yielded := false }).exitByOrigin k .flip

/-- The class that the confirm gives a confirm-pending district (R168). -/
def DistrictRecord.confirmClass (d : DistrictRecord) : ReturnClass := if d.hold then .dark else .queue

/-- The record of a confirm-pending district once its changeover is confirmed (R86, R168). -/
def DistrictRecord.confirmed (d : DistrictRecord) : DistrictRecord :=
  { d with yielded := false, confirmPending := false, returnClass := d.confirmClass }

/-- Where the confirm takes a confirm-pending district whose flip is counted (R86, R168, R171). -/
def State.afterPendingConfirm (k : District) (c : State) : State :=
  if c.halted then c.setRecord k (c.record k).confirmed else (c.setRecord k (c.record k).confirmed).leaveHalted k

theorem State.confirmSwitching_eq (k : District) (s : State) :
    s.confirmSwitching k = (s.setRelay k (s.relay k).countFlip).afterConfirm k := rfl

theorem State.setRecord_setRecord (s : State) (k : District) (d d' : DistrictRecord) :
    (s.setRecord k d).setRecord k d' = s.setRecord k d' := by
  have districts : (s.districts.set k d).set k d' = s.districts.set k d' := by
    fin_cases k <;> rfl
  unfold State.setRecord
  rw [districts]

theorem State.confirmPendingFlip_eq (k : District) (s : State) :
    s.confirmPendingFlip k = (s.setRelay k (s.relay k).countFlip).afterPendingConfirm k := by
  unfold State.confirmPendingFlip State.settlePending State.afterPendingConfirm
  simp only [State.modRelay_eq, State.modRecord_eq, State.record_setRecord_self, State.setRecord_setRecord]
  rfl

/-- A reading at the level of POLk confirms a changeover (R79, R86, R168). -/
theorem State.judgeReading_confirms {r : Relay} (agrees : r.cnf = r.pol) (s : State) (k : District) :
    ((s.record k).state = .switching →
        (s.setRelay k r).judgeReading k = (s.setRelay k r.countFlip).afterConfirm k) ∧
      ((s.record k).state = .halted → (s.record k).confirmPending = true →
        (s.setRelay k r).judgeReading k = (s.setRelay k r.countFlip).afterPendingConfirm k) := by
  have switches := State.confirmSwitching_eq k (s.setRelay k r)
  have settles := State.confirmPendingFlip_eq k (s.setRelay k r)
  rw [State.relay_setRelay_self, State.setRelay_setRelay] at switches settles
  rw [← switches, ← settles]
  unfold State.judgeReading
  dsimp only
  rw [State.record_setRelay, State.relay_setRelay_self, agrees, beq_self_eq_true]
  refine ⟨fun switching => (if_pos switching).trans (if_pos rfl), fun halted isPending => ?_⟩
  rw [if_neg (by rw [halted]; decide), if_pos (DistrictRecord.pendingInHalt_iff.mpr ⟨halted, isPending⟩)]
  exact if_pos rfl

/-- The debounced level of POLk, with the flip counted. -/
theorem exec_debounceExpiry_confirm (held : (s.qualifier (.cnf k)).held.isSome = true)
    (reversing : (s.record k).reversing = true) (driven : (s.relay k).pol = some (s.qualifier (.cnf k)).raw) :
    ∃ c, State.FlipCounted k s c ∧
      ((s.record k).state = .switching →
        exec (.debounceExpiry (.cnf k)) s = .next (State.followUp s (c.afterConfirm k))) ∧
      ((s.record k).state = .halted → (s.record k).confirmPending = true →
        exec (.debounceExpiry (.cnf k)) s = .next (State.followUp s (c.afterPendingConfirm k))) := by
  have unmoved := State.unmoved_setQualifier s (.cnf k) (s.qualifier (.cnf k)).expired
  have record := State.record_setQualifier s (.cnf k) (s.qualifier (.cnf k)).expired
  have relay := State.relay_setQualifier s (.cnf k) (s.qualifier (.cnf k)).expired
  have rest : (s.setQualifier (.cnf k) (s.qualifier (.cnf k)).expired).queue = s.queue ∧
      (s.setQualifier (.cnf k) (s.qualifier (.cnf k)).expired).alert = s.alert ∧
      ∀ j, (s.setQualifier (.cnf k) (s.qualifier (.cnf k)).expired).engine j = s.engine j := ⟨rfl, rfl, fun _ => rfl⟩
  rw [exec_debounceExpiry, State.debounceExpiry_held held]
  unfold State.deliver
  dsimp only
  generalize s.setQualifier (.cnf k) (s.qualifier (.cnf k)).expired = a at *
  obtain ⟨queue, alert, engine⟩ := rest
  have next : a.cnfDelivered k (s.qualifier (.cnf k)).raw =
      (a.setRelay k { s.relay k with cnf := (s.relay k).pol }).judgeReading k := by
    rw [State.cnfDelivered_driven (by rw [record]; exact reversing) (by rw [relay, driven]; exact nofun), relay, driven]
  rw [next]
  refine ⟨a.setRelay k (Relay.countFlip { s.relay k with cnf := (s.relay k).pol }),
    ⟨unmoved.trans (State.unmoved_setRelay a k _), queue, alert, fun j other => ⟨record j, engine j, ?_⟩, ?_⟩,
    fun switching => ?_, fun halted isPending => ?_⟩
  · exact (State.relay_setRelay_other a other _).trans (relay j)
  · exact State.relay_setRelay_self a k _
  · rw [(State.judgeReading_confirms rfl a k).1 ((congrArg DistrictRecord.state (record k)).trans switching)]
  · rw [(State.judgeReading_confirms rfl a k).2 ((congrArg DistrictRecord.state (record k)).trans halted)
      ((congrArg DistrictRecord.confirmPending (record k)).trans isPending)]

/-! ### The confirm inside a halt -/

theorem State.leaveHalted_settled (halted : (s.record k).state = .halted)
    (settled : (s.record k).confirmPending = false) :
    ((s.record k).returnClass = .dark → s.leaveHalted k = s.enterDark k) ∧
      ((s.record k).returnClass = .queue → s.leaveHalted k = s.enterQueued k) := by
  unfold State.leaveHalted
  dsimp only
  rw [if_pos ⟨halted, settled⟩]
  refine ⟨fun cls => ?_, fun cls => ?_⟩ <;> rw [cls]

/-- The three ways out of a confirm-pending changeover: to stay for the halt, to go dark under a hold, or to wait
(R86, R168, R171). -/
theorem State.afterPendingConfirm_cases (halted : (c.record k).state = .halted) :
    c.halted = true ∧ c.afterPendingConfirm k = c.setRecord k (c.record k).confirmed ∨
      c.halted = false ∧ (c.record k).hold = true ∧
        c.afterPendingConfirm k = (c.setRecord k (c.record k).confirmed).enterDark k ∨
      c.halted = false ∧ (c.record k).hold = false ∧
        c.afterPendingConfirm k = (c.setRecord k (c.record k).confirmed).enterQueued k := by
  have leaves := State.leaveHalted_settled (s := c.setRecord k (c.record k).confirmed) (k := k)
  rw [State.record_setRecord_self] at leaves
  obtain ⟨dark, queue⟩ := leaves halted rfl
  unfold State.afterPendingConfirm
  cases running : c.halted with
  | true => exact Or.inl ⟨rfl, rfl⟩
  | false =>
    cases hold : (c.record k).hold with
    | true => exact Or.inr (Or.inl ⟨rfl, rfl, dark (if_pos hold)⟩)
    | false => exact Or.inr (Or.inr ⟨rfl, rfl, queue (if_neg (by rw [hold]; decide))⟩)

/-- The confirm inside a halt touches its district alone, drives no relay and leaves the latch. -/
theorem State.afterPendingConfirm_moves (halted : (c.record k).state = .halted) :
    State.onlyDistrict k c (c.afterPendingConfirm k) ∧ (c.afterPendingConfirm k).relay k = c.relay k ∧
      (c.afterPendingConfirm k).alert = c.alert := by
  have marked := State.onlyDistrict_setRecord k (c.record k).confirmed c
  rcases State.afterPendingConfirm_cases halted with ⟨_, same⟩ | ⟨_, _, same⟩ | ⟨_, _, same⟩ <;> rw [same]
  · exact ⟨marked, rfl, rfl⟩
  · exact ⟨State.onlyDistrict_trans marked (State.onlyDistrict_enterDark k _),
      State.relay_moveOff k k DistrictRecord.toDark _, State.alert_moveOff k DistrictRecord.toDark _⟩
  · exact ⟨State.onlyDistrict_trans marked (State.onlyDistrict_enterQueued k _),
      State.relay_moveOff k k DistrictRecord.toQueued _, State.alert_moveOff k DistrictRecord.toQueued _⟩

/-- The record behind the confirm inside a halt: settled for the halt, DARK, QUEUED, or in QUIET a ramp started in the
same step (R86, R161, R168, R171). -/
theorem State.record_afterPendingConfirm (before : State) (halted : (c.record k).state = .halted) :
    let e := (State.followUp before (c.afterPendingConfirm k)).record k
    let d := (c.record k).confirmed
    c.halted = true ∧ e = d ∨ c.halted = false ∧ (c.record k).hold = true ∧ e = d.toDark ∨
      c.halted = false ∧ (c.record k).hold = false ∧ (e = d.toQueued ∨ c.mode = .quiet ∧ e = d.toQueued.toRamping) := by
  dsimp only
  have mode := State.mode_of_sameOutside (State.afterPendingConfirm_moves halted).1.2
  rcases State.afterPendingConfirm_cases halted with ⟨station, same⟩ | ⟨running, hold, same⟩ | ⟨running, unheld, same⟩
  · have after : (c.afterPendingConfirm k).record k = (c.record k).confirmed := by
      rw [same, State.record_setRecord_self]
    rw [(State.followUp_spares before (by rw [after]; exact fun queued => nomatch halted.symm.trans queued)).1]
    exact Or.inl ⟨station, after⟩
  · have after : (c.afterPendingConfirm k).record k = (c.record k).confirmed.toDark := by
      rw [same, State.record_enterDark, State.record_setRecord_self]
    rw [(State.followUp_spares before (by rw [after]; exact nofun)).1]
    exact Or.inr (Or.inl ⟨running, hold, after⟩)
  · have after : (c.afterPendingConfirm k).record k = (c.record k).confirmed.toQueued := by
      rw [same, State.enterQueued, State.record_moveOff, State.record_setRecord_self]
    refine Or.inr (Or.inr ⟨running, unheld, ?_⟩)
    rw [← after, ← mode]
    exact (State.record_followUp before (c.afterPendingConfirm k) k).imp_right fun starts => ⟨starts.1, starts.2.2⟩

/-- Under a halt nothing follows the confirm, and the queue is as it was (R171). -/
theorem State.FlipCounted.stays (counted : State.FlipCounted k s c) (owed : s.NoStartOwed)
    (halted : (c.record k).state = .halted) (station : c.halted = true) :
    (State.followUp s (c.afterPendingConfirm k)).queue = s.queue := by
  rcases State.afterPendingConfirm_cases halted with ⟨_, same⟩ | ⟨running, _⟩ | ⟨running, _⟩
  · have state : ((c.afterPendingConfirm k).record k).state = (c.record k).state := by
      rw [same, State.record_setRecord_self]
      rfl
    have steady : c.Steady (c.afterPendingConfirm k) := by
      refine State.steady_of_rampKept (State.afterPendingConfirm_moves halted).1 (State.rampKept_of_eq ?_)
        (by rw [state]) (by rw [state])
      rw [same]
      rfl
    rw [(counted.unmoved.steady.trans steady).followUp_of_noStartOwed owed, same]
    exact counted.queue
  · exact nomatch running.symm.trans station
  · exact nomatch running.symm.trans station

/-! ### The confirm in SWITCHING -/

theorem State.afterConfirm_held (hold : (c.record k).hold = true) :
    c.afterConfirm k = (c.setRecord k { c.record k with n := 0 }).enterDark k := if_pos hold

theorem State.afterConfirm_chatters (unheld : (c.record k).hold = false) (flips : (c.relay k).flipCount = 5) :
    c.afterConfirm k = (c.setRelay k (c.relay k).chatterOver).failWith k .chatter (c.record k).failedCount false := by
  unfold State.afterConfirm
  rw [if_neg (Bool.eq_false_iff.mp unheld)]
  exact if_pos flips.ge

theorem State.afterConfirm_exits (unheld : (c.record k).hold = false) (flips : (c.relay k).flipCount < 5) :
    c.afterConfirm k = (c.setRecord k { c.record k with yielded := false }).exitByOrigin k .flip := by
  unfold State.afterConfirm
  rw [if_neg (Bool.eq_false_iff.mp unheld)]
  exact if_neg (Nat.not_le.mpr flips)

/-- A confirm in SWITCHING under a hold (R62). -/
theorem State.outcome_confirm_held (before : State) (hold : (c.record k).hold = true) :
    (State.followUp before (c.afterConfirm k)).record k = { c.record k with n := 0 }.toDark ∧
      (State.followUp before (c.afterConfirm k)).relay k = c.relay k := by
  have after : (c.afterConfirm k).record k = { c.record k with n := 0 }.toDark := by
    rw [State.afterConfirm_held hold, State.record_enterDark, State.record_setRecord_self]
  rw [State.relay_followUp, (State.followUp_spares before (by rw [after]; exact nofun)).1, after,
    State.afterConfirm_held hold]
  exact ⟨rfl, State.relay_moveOff k k DistrictRecord.toDark _⟩

/-- The flip that makes a chatter is a counted failure, and nothing follows it (R44, R79). -/
theorem State.FlipCounted.chatters (counted : State.FlipCounted k s c) (owed : s.NoStartOwed)
    (switching : (s.record k).state = .switching) (unheld : (s.record k).hold = false)
    (flips : (c.relay k).flipCount = 5) :
    let t := State.followUp s (c.afterConfirm k)
    let n := min ((s.record k).n + 1) 8
    (t.record k).state = (if n = 8 then .locked else .cooling) ∧ (t.record k).n = n ∧
      (t.record k).lastFault = .chatter ∧ t.relay k = (c.relay k).chatterOver ∧
      t.queue = s.queueWith (s.frameFor .tr k (80 + n)) := by
  dsimp only
  have record : (c.setRelay k (c.relay k).chatterOver).record k = s.record k := counted.record k
  have unmoved := counted.unmoved.trans (State.unmoved_setRelay c k (c.relay k).chatterOver)
  have queue : (c.setRelay k (c.relay k).chatterOver).queue = s.queue := counted.queue
  have relay := State.relay_setRelay_self c k (c.relay k).chatterOver
  have same : c.afterConfirm k = (c.setRelay k (c.relay k).chatterOver).failWith k .chatter
      (min ((s.record k).n + 1) 8) false := by
    rw [State.afterConfirm_chatters (by rwa [counted.record]) flips, counted.record]
    rfl
  rw [same]
  generalize c.setRelay k (c.relay k).chatterOver = a at *
  have failed := State.failsTo_failWith (s := a) (k := k) .chatter (min ((s.record k).n + 1) 8) false
    (by rw [record, switching]; decide) (by rw [record, switching]; decide)
  obtain ⟨state, n, lastFault, _⟩ := State.outcome_failWith (k := k) .chatter false a
    (Nat.min_le_right ((s.record k).n + 1) 8)
  have kept : State.rampKept a (a.failWith k .chatter (min ((s.record k).n + 1) 8) false) := by
    unfold State.rampKept
    rw [failed.ramp, State.depart_unmoved (by rw [record, switching]; decide) (by rw [record, switching]; decide)
      (by rw [record, switching]; decide)]
    exact ⟨rfl, State.rbDistrict_post _ a⟩
  have follows := State.followUp_of_rampKept owed unmoved failed.only kept (by rw [switching]; decide)
    (by rw [state]; split <;> decide)
  rw [follows]
  refine ⟨state, n, lastFault, failed.relay.trans relay, ?_⟩
  rw [failed.queue, State.queueWith_congr unmoved.mode queue, State.frameFor_congr unmoved.config]
  rfl

/-- The exit by origin of a confirmed flip, with yielded clear (R80, R82). -/
theorem State.FlipCounted.exits (counted : State.FlipCounted k s c) (unheld : (s.record k).hold = false)
    (flips : (c.relay k).flipCount < 5) :
    let d : DistrictRecord := { s.record k with yielded := false }
    ((s.record k).origin = .live →
        (c.afterConfirm k).record k = d.toLive .flip ∧ (c.afterConfirm k).engine k = Engine.cleared) ∧
      ((s.record k).origin = .ramp → (c.afterConfirm k).record k = d.toQueued) ∧
      ((s.record k).origin = .probe → (c.afterConfirm k).record k = d.toProbing) ∧
      (c.afterConfirm k).relay k = c.relay k ∧ (c.afterConfirm k).mode = s.mode := by
  dsimp only
  have same := State.afterConfirm_exits (c := c) (k := k) (by rwa [counted.record]) flips
  rw [counted.record] at same
  have relay : (c.setRecord k { s.record k with yielded := false }).relay k = c.relay k := rfl
  have agrees : (c.setRecord k { s.record k with yielded := false }).relayDisagrees k = false :=
    (State.relayDisagrees_congr (by rw [State.record_setRecord_self, counted.record]) relay).trans counted.agrees
  have mode : (c.setRecord k { s.record k with yielded := false }).mode = s.mode := counted.unmoved.mode
  have record := State.record_setRecord_self c k { s.record k with yielded := false }
  rw [same]
  generalize c.setRecord k { s.record k with yielded := false } = a at *
  have origin : (a.record k).origin = (s.record k).origin := by rw [record]
  have exitMode := State.mode_of_sameOutside (State.onlyDistrict_exitByOrigin k .flip a).2
  have probing := State.enterProbing_agrees agrees
  rw [← relay, ← mode, exitMode, ← record, ← origin]
  unfold State.exitByOrigin
  cases (a.record k).origin with
  | live =>
    exact ⟨fun _ => ⟨State.record_moveOff k (DistrictRecord.toLive .flip) a,
      State.engine_moveOff k (DistrictRecord.toLive .flip) a⟩, nofun, nofun,
      State.relay_moveOff k k (DistrictRecord.toLive .flip) a, rfl⟩
  | ramp =>
    exact ⟨nofun, fun _ => State.record_moveOff k DistrictRecord.toQueued a, nofun,
      State.relay_moveOff k k DistrictRecord.toQueued a, rfl⟩
  | probe =>
    dsimp only
    rw [probing]
    exact ⟨nofun, nofun, fun _ => State.record_moveOff k DistrictRecord.toProbing a,
      State.relay_moveOff k k DistrictRecord.toProbing a, rfl⟩

/-- The confirm of a SWITCHING district drives no relay, and forgets the flips of a chatter (R79). -/
theorem State.FlipCounted.relay_afterConfirm (counted : State.FlipCounted k s c) (owed : s.NoStartOwed)
    (switching : (s.record k).state = .switching) :
    (State.followUp s (c.afterConfirm k)).relay k = c.relay k ∨
      (State.followUp s (c.afterConfirm k)).relay k = (c.relay k).chatterOver := by
  have most : (c.relay k).flipCount ≤ 5 := by
    rw [counted.relay]
    exact Nat.min_le_right _ _
  cases hold : (s.record k).hold with
  | true => exact Or.inl (State.outcome_confirm_held s (by rwa [counted.record])).2
  | false =>
    rcases Nat.lt_or_eq_of_le most with few | five
    · exact Or.inl ((State.relay_followUp s _ k).trans (counted.exits hold few).2.2.2.1)
    · exact Or.inr (counted.chatters owed switching hold five).2.2.2.1

theorem State.othersKept_trans {u : State} (h : State.othersKept k s t) (h' : State.othersKept k t u) :
    State.othersKept k s u := fun j other =>
  ⟨(h' j other).1.trans (h j other).1, (h' j other).2.1.trans (h j other).2.1,
    (h' j other).2.2.trans (h j other).2.2⟩

end Sys2Proof.Machine

open Sys2Proof Sys2Proof.Machine

/-- Settles O23: the flip is counted, and the district goes by the halt, the hold, the count of flips and the origin. -/
theorem relayConfirms : Obligations.RelayConfirms := by
  intro s k held reversing driven owed
  obtain ⟨c, counted, confirms, settles⟩ := exec_debounceExpiry_confirm held reversing driven
  refine ⟨fun halted isPending => ?_, fun switching => ?_⟩
  · have state : (c.record k).state = .halted := by rwa [counted.record]
    have outcome := State.record_afterPendingConfirm s state
    obtain ⟨only, relay, alert⟩ := State.afterPendingConfirm_moves state
    have follows := State.sameOutside_followUp s (c.afterPendingConfirm k)
    have mode : (c.afterPendingConfirm k).mode = s.mode :=
      (State.mode_of_sameOutside only.2).trans counted.unmoved.mode
    have station : c.halted = s.halted := State.halted_congr counted.unmoved.halt
    have stays := counted.stays owed state
    dsimp only at outcome
    rw [counted.record, counted.unmoved.mode, station] at outcome
    rw [station] at stays
    obtain ⟨pendingAfter, cls, yielded, n, hold, lastFault⟩ :
        let e := (State.followUp s (c.afterPendingConfirm k)).record k
        e.confirmPending = false ∧ e.returnClass = (s.record k).confirmClass ∧ e.yielded = false ∧
          e.n = (s.record k).n ∧ e.hold = (s.record k).hold ∧ e.lastFault = (s.record k).lastFault := by
      dsimp only
      generalize s.record k = d at outcome
      rcases outcome with ⟨_, after⟩ | ⟨_, _, after⟩ | ⟨_, _, after | ⟨_, after⟩⟩ <;> rw [after] <;>
        exact ⟨rfl, rfl, rfl, rfl, rfl, rfl⟩
    refine ⟨_, settles halted isPending, (State.relay_followUp s _ k).trans (relay.trans counted.relay), pendingAfter,
      cls, yielded, n, hold, lastFault, (State.alert_followUp s _).trans (alert.trans counted.alert),
      (State.halt_of_sameOutside follows).trans ((State.halt_of_sameOutside only.2).trans counted.unmoved.halt),
      fun notQuiet => ?_, fun isHalted => ⟨stays isHalted, ?_⟩, fun running hold => ?_, fun running unheld => ?_⟩
    · have others := State.onlyDistrict_trans only
        (State.onlyDistrict_followUp_outside_quiet s (by rwa [mode]) k)
      exact State.othersKept_trans counted.others others.1
    · rcases outcome with ⟨_, after⟩ | ⟨running, _⟩ | ⟨running, _⟩
      · exact after
      · exact nomatch running.symm.trans isHalted
      · exact nomatch running.symm.trans isHalted
    · rcases outcome with ⟨isHalted, _⟩ | ⟨_, _, after⟩ | ⟨_, unheld, _⟩
      · exact nomatch running.symm.trans isHalted
      · rw [after]
        rfl
      · exact nomatch unheld.symm.trans hold
    · rcases outcome with ⟨isHalted, _⟩ | ⟨_, hold, _⟩ | ⟨_, _, after | ⟨quiet, after⟩⟩
      · exact nomatch running.symm.trans isHalted
      · exact nomatch unheld.symm.trans hold
      · rw [after]
        exact ⟨rfl, Or.inl rfl⟩
      · rw [after]
        exact ⟨rfl, Or.inr ⟨quiet, rfl⟩⟩
  · have flips : (c.relay k).flipCount = min ((s.relay k).flipCount + 1) 5 := by rw [counted.relay]
    have chatters := counted.chatters owed switching
    have exits := counted.exits (c := c)
    have held := State.outcome_confirm_held (c := c) (k := k) s
    rw [counted.record] at held
    have relay := counted.relay_afterConfirm owed switching
    refine ⟨_, confirms switching, ?_, ?_, ?_, fun hold => ?_, fun unheld five => ?_, fun unheld few => ?_⟩
    · rcases relay with same | same <;> rw [same, counted.relay]
      rfl
    · rcases relay with same | same <;> rw [same, counted.relay]
      rfl
    · rcases relay with same | same <;> rw [same, counted.relay]
      rfl
    · obtain ⟨after, relay⟩ := held hold
      rw [after, relay, counted.relay]
      exact ⟨rfl, rfl, hold, rfl, rfl, rfl⟩
    · obtain ⟨state, n, lastFault, relay, queue⟩ := chatters unheld (flips.trans five)
      rw [relay]
      exact ⟨state, n, lastFault, rfl, rfl, queue⟩
    · obtain ⟨live, ramp, probe, relay, mode⟩ := exits unheld (flips.trans_lt few)
      have after := State.record_followUp s (c.afterConfirm k) k
      rw [mode] at after
      have spared := State.followUp_spares (k := k) (s := c.afterConfirm k) s
      rw [State.relay_followUp, relay, counted.relay]
      cases origin : (s.record k).origin with
      | live =>
        obtain ⟨record, engine⟩ := live origin
        rw [record] at spared
        obtain ⟨recordAfter, engineAfter, _⟩ := spared nofun
        rw [State.gate_eq, recordAfter, engineAfter, engine]
        exact ⟨rfl, rfl, rfl, rfl, rfl, fun _ => ⟨rfl, rfl, rfl, rfl, rfl, rfl⟩, nofun, nofun⟩
      | ramp =>
        rw [ramp origin] at after
        rcases after with after | ⟨quiet, _, after⟩ <;> rw [after]
        · exact ⟨rfl, rfl, rfl, rfl, rfl, nofun, fun _ => ⟨rfl, Or.inl rfl⟩, nofun⟩
        · exact ⟨rfl, rfl, rfl, rfl, rfl, nofun, fun _ => ⟨rfl, Or.inr ⟨quiet, rfl⟩⟩, nofun⟩
      | probe =>
        rw [probe origin] at spared
        rw [(spared nofun).1]
        exact ⟨rfl, rfl, rfl, rfl, rfl, nofun, nofun, fun _ => ⟨rfl, rfl, rfl⟩⟩

end

section
/-! PROOFS. The completion of the station's own RB (R53, R125, R149, R155 to R159): the settled attempt, the re-check, and
the choice made again. -/

namespace Sys2Proof.Machine

variable {k : District} {s b t : State}

/-! ### Postings to a queue whose entries all wait -/

/-- Where all entries wait, all wait after a posting (R133). -/
theorem waiting_postInto (p : Post) {q : List Entry} (waiting : ∀ x ∈ q, x.phase = .waiting) :
    ∀ x ∈ (postInto p q).queue, x.phase = .waiting := by
  intro x hx
  unfold postInto at hx
  split at hx
  · rename_i e found
    rcases (mem_insertByRank _ _ _).mp hx with rfl | kept
    · unfold Entry.replacedBy
      rw [waiting e (List.mem_of_find?_eq_some found)]
    · exact waiting x (List.mem_of_mem_filter kept)
  · split at hx
    · rcases (mem_insertByRank _ _ _).mp hx with rfl | kept
      · rfl
      · exact waiting x kept
    · unfold overflowPost at hx
      split at hx
      · split at hx
        · rcases (mem_insertByRank _ _ _).mp hx with rfl | kept
          · rfl
          · exact waiting x ((sublist_dropTailWaiting q).subset kept)
        · exact waiting x hx
      · exact waiting x hx

/-- A posting adds at most one entry. -/
theorem length_postInto_le (p : Post) (q : List Entry) : (postInto p q).queue.length ≤ q.length + 1 := by
  unfold postInto
  split
  · rw [length_insertByRank]
    exact Nat.succ_le_succ (List.length_filter_le _ q)
  · split
    · rw [length_insertByRank]
    · unfold overflowPost
      split
      · split
        · rw [length_insertByRank]
          exact Nat.succ_le_succ (sublist_dropTailWaiting q).length_le
        · exact Nat.le_succ _
      · exact Nat.le_succ _

/-- The tail alone is dropped (R134). -/
theorem mem_dropTailWaiting_of_ne {q : List Entry} {x last : Entry} (tail : tailWaiting q = some last) (there : x ∈ q)
    (other : x ≠ last) : x ∈ dropTailWaiting q := by
  induction q with
  | nil => cases there
  | cons y rest ih =>
    unfold tailWaiting at tail
    unfold dropTailWaiting
    cases found : tailWaiting rest with
    | some e =>
      rw [found] at tail ih
      rcases List.mem_cons.mp there with rfl | behind
      · exact List.mem_cons_self
      · exact List.mem_cons_of_mem _ (ih tail behind)
    | none =>
      rw [found] at tail
      dsimp only at tail ⊢
      split at tail
      · rename_i waits
        rw [if_pos waits]
        exact (List.mem_cons.mp there).resolve_left fun same => other (same.trans (Option.some.inj tail))
      · cases tail

/-- An entry ahead of a posted frame that does not replace it stays (R132, R134). -/
theorem mem_postInto_of_rank_lt {p : Post} {q : List Entry} {x : Entry} (there : x ∈ q)
    (spared : p.replaces x.frame = false) (ahead : x.frame.rank < p.rank) : x ∈ (postInto p q).queue := by
  unfold postInto
  split
  · exact (mem_insertByRank _ _ _).mpr (Or.inr (List.mem_filter.mpr ⟨there, by rw [spared]; rfl⟩))
  · split
    · exact (mem_insertByRank _ _ _).mpr (Or.inr there)
    · unfold overflowPost
      split
      · rename_i last tail
        split
        · rename_i drops
          refine (mem_insertByRank _ _ _).mpr (Or.inr (mem_dropTailWaiting_of_ne tail there fun same => ?_))
          rw [same] at ahead
          exact Nat.lt_asymm ahead drops
        · exact there
      · exact there

/-- An RE goes ahead of every RB (R131). -/
theorem Post.rank_re_lt_rb {p r : Post} (re : p.kind = .re) (nibble : p.prio = 0) (rb : r.kind = .rb) :
    p.rank < r.rank := by
  have loc := Where.code_lt p.loc
  unfold Post.rank
  rw [re, nibble, rb]
  show 4096 * 2 + 256 * 0 + p.loc.code < 4096 * 3 + 256 * r.prio.val + r.loc.code
  omega

theorem State.length_post_le (p : Post) (s : State) : (s.post p).queue.length ≤ s.queue.length + 1 := by
  rw [State.queue_post]
  unfold State.queueWith
  split
  · exact length_postInto_le p s.queue
  · exact Nat.le_succ _

/-! ### The choice made again -/

/-- A choice made again leaves the queue, or posts one RB to it (R155, R156). -/
theorem State.queue_chooseAgain (s : State) :
    s.chooseAgain.queue = s.queue ∨
      ∃ j, s.mode = .run ∧ s.chooseAgain.queue = (postInto (s.rbPost j) s.queue).queue := by
  by_cases run : s.mode = .run
  · cases chosen : s.choice with
    | none =>
      left
      unfold State.chooseAgain
      rw [if_pos run, chosen]
      rfl
    | some j =>
      by_cases offered : s.ramp.rbDistrict = some j
      · rw [State.chooseAgain_of_offered run chosen offered]
        exact Or.inl rfl
      · refine Or.inr ⟨j, run, ?_⟩
        rw [State.chooseAgain_posts run chosen offered, State.queue_post, State.queueWith]
        exact if_pos run
  · rw [State.chooseAgain_outside_run run]
    exact Or.inl rfl

theorem State.waiting_chooseAgain (waiting : ∀ x ∈ s.queue, x.phase = .waiting) :
    ∀ x ∈ s.chooseAgain.queue, x.phase = .waiting := by
  rcases State.queue_chooseAgain s with same | ⟨j, _, same⟩ <;> rw [same]
  · exact waiting
  · exact waiting_postInto _ waiting

/-- The RB of a choice drops no RE (R131, R134). -/
theorem State.chooseAgain_keeps_re {x : Entry} (there : x ∈ s.queue) (re : x.frame.kind = .re)
    (nibble : x.frame.prio = 0) : x ∈ s.chooseAgain.queue := by
  rcases State.queue_chooseAgain s with same | ⟨j, _, same⟩ <;> rw [same]
  · exact there
  · refine mem_postInto_of_rank_lt there ?_ (Post.rank_re_lt_rb re nibble rfl)
    unfold Post.replaces
    rw [re]
    rfl

/-- With no RB district and room in the queue the QUEUED district that waits longest is offered (R155, R156). -/
theorem State.chooseAgain_offersNext (run : s.mode = .run) (none : s.ramp.rbDistrict = none)
    (room : s.queue.length < Config.NQUEUE) {j : District} (longest : s.chooseAgain.waitsLongest j)
    (below : (s.chooseAgain.record j).w < Config.WMAX) : s.chooseAgain.offersRamp j := by
  rw [State.record_chooseAgain] at below
  obtain ⟨_, _, _, offers⟩ := State.chooseAgain_offers run
    (State.choice_of_waitsLongest (State.waitsLongest_chooseAgain.mp longest) below) room
  exact offers (by rw [none]; exact nofun)

/-! ### The settled attempt -/

theorem State.tx_showLine (level : Level) (s : State) : (s.showLine level).line.tx = s.line.tx := by
  unfold State.showLine
  cases level with
  | low =>
    dsimp only
    split <;> rfl
  | high =>
    dsimp only
    rcases State.freed_cases (s.modLine (fun l => { l with pulled := false })) with ⟨_, same⟩ | ⟨_, same⟩ <;>
      rw [same] <;> rfl

/-- The hand-over of a character leaves the transmitter (R96). -/
theorem State.tx_characterHanded (raw : RawChar) (s : State) : (s.characterHanded raw).line.tx = s.line.tx := by
  have counted (u : State) : (u.stopCounted raw).line.tx = u.line.tx := by
    unfold State.stopCounted
    split <;> rfl
  have recessive : (s.stopRecessive raw).line.tx = s.line.tx := by
    unfold State.stopRecessive
    rw [counted]
    split
    · rfl
    · exact State.tx_showLine .high s
  have dominant : (s.stopDominant raw).line.tx = s.line.tx := State.tx_showLine .low s
  unfold State.characterHanded
  split
  · rfl
  · split
    · rfl
    · split
      · exact recessive
      · exact dominant

/-- The attempt is over, completed (R107, R136): the transmitter is IDLE, every entry waits, none was added, and the
districts are as they were. -/
structure State.Completed (s b : State) : Prop where
  unmoved : s.Unmoved b
  engines : b.engines = s.engines
  relays : b.relays = s.relays
  alert : b.alert = s.alert
  idle : b.line.tx = none
  waiting : ∀ x ∈ b.queue, x.phase = .waiting
  length : b.queue.length ≤ s.queue.length

/-- The state in which the copy of a completed frame is dispatched (R107, R138). -/
def State.completed (data : Byte) (s : State) : State :=
  ((s.settleAttempt true).modLine (fun l => { l with tx := none })).frameComplete data

theorem State.completed_completed (data : Byte) (s : State) : State.Completed s (s.completed data) := by
  have waiting : ∀ x ∈ (s.settleAttempt true).queue, x.phase = .waiting := fun _ => State.settleAttempt_waiting
  have length : (s.settleAttempt true).queue.length ≤ s.queue.length := List.length_filterMap_le _ s.queue
  have idle : (s.completed data).line.tx = none := State.tx_characterHanded _ _
  have handed := State.onlyLine_frameComplete data ((s.settleAttempt true).modLine (fun l => { l with tx := none }))
  unfold State.completed at idle ⊢
  generalize ((s.settleAttempt true).modLine (fun l => { l with tx := none })).frameComplete data = b at *
  unfold State.onlyLine at handed
  have queue : b.queue = (s.settleAttempt true).queue := by rw [handed]; rfl
  refine ⟨?_, ?_, ?_, ?_, idle, by rwa [queue], by rwa [queue]⟩ <;> rw [handed]
  · exact ⟨rfl, rfl, rfl, rfl, rfl⟩
  all_goals rfl

/-! ### The re-check -/

/-- The RB district none if it named district k: the first thing the re-check does (R155, R158). -/
def State.rbDone (k : District) (s : State) : State :=
  s.modRamp (fun r => { r with rbDistrict := if r.rbDistrict = some k then none else r.rbDistrict })

/-- What lets the re-check start the ramp (R158). -/
abbrev State.startsAtRecheck (k : District) (s : State) : Prop :=
  (s.record k).state = .queued ∧ s.ramp.list.length < s.budgetInForce ∧ s.ramp.holdoff = none

theorem State.recheck_eq (k : District) (s : State) :
    s.recheck k = if s.startsAtRecheck k then (s.rbDone k).startRamp k else (s.rbDone k).postRe k := by
  have same : (((s.rbDone k).record k).state = .queued ∧ (s.rbDone k).roomForRamp = true) ↔ s.startsAtRecheck k := by
    have room : (s.rbDone k).roomForRamp = s.roomForRamp := rfl
    rw [room]
    unfold State.roomForRamp State.startsAtRecheck
    rw [Bool.and_eq_true, decide_eq_true_iff, beq_iff_eq]
    rfl
  exact if_congr same rfl rfl

theorem State.onlyDistrict_recheck (k : District) (s : State) : State.onlyDistrict k s (s.recheck k) := by
  have done : State.onlyDistrict k s (s.rbDone k) := State.onlyDistrict_modRamp k _ s
  rw [State.recheck_eq]
  split
  · exact State.onlyDistrict_trans done (State.onlyDistrict_startRamp k _)
  · exact State.onlyDistrict_trans done (State.onlyDistrict_post k _ _)

/-- OWN_RB_COMPLETION in RUN, at the end of the frame: the attempt is settled, the district named is checked again, and
the unit chooses (R107, R125, R155, R158). -/
theorem exec_ownRbCompletion {f : Frame} (run : s.mode = .run) (rb : f.post.kind = .rb)
    (sent : s.line.tx = some { frame := f, char := 3, t := 192 }) :
    ∃ b, State.Completed s b ∧
      exec .ownRbCompletion s = .next (b.recheck f.post.loc.district).chooseAgain := by
  have ended := State.completed_completed f.post.data s
  refine ⟨s.completed f.post.data, ended, ?_⟩
  have all : s.sentAll = true := by
    unfold State.sentAll
    rw [sent]
    rfl
  have completes : s.completeInFlight (fun kind => kind == .rb) = s.ownCompletion f := by
    unfold State.completeInFlight
    rw [sent]
    exact if_pos ⟨run, beq_iff_eq.mpr rb⟩
  have outside := State.sameOutsideDistricts_trans
    (State.onlyDistrict_recheck f.post.loc.district (s.completed f.post.data)).2
    (State.sameOutside_chooseAgain _)
  have mode := (State.mode_of_sameOutside outside).trans (ended.unmoved.mode.trans run)
  have dispatched : (s.completed f.post.data).dispatchOwn f =
      (s.completed f.post.data).recheck f.post.loc.district := by
    unfold State.dispatchOwn
    rw [rb]
  have owns : s.ownCompletion f = ((s.completed f.post.data).dispatchOwn f).chooseAgain.directStart := by
    unfold State.ownCompletion
    dsimp only
    rw [if_pos all, if_pos (Or.inl rb)]
    rfl
  show Host.Outcome.next (s.completeInFlight (fun kind => kind == .rb)) = _
  rw [completes, owns, dispatched, State.directStart_outside_quiet (by rw [mode]; decide)]

theorem State.rbDone_none (named : s.ramp.rbDistrict = none ∨ s.ramp.rbDistrict = some k) :
    (s.rbDone k).ramp.rbDistrict = none := by
  show (if s.ramp.rbDistrict = some k then none else s.ramp.rbDistrict) = none
  rcases named with h | h
  · rw [h]
    rfl
  · exact if_pos h

/-- The ramp that the re-check starts (R53, R137, R149). -/
theorem State.recheck_starts (starts : s.startsAtRecheck k) :
    s.recheck k = (s.rbDone k).startRamp k ∧ (s.recheck k).queue = (s.withdraw .rb k).queue ∧
      (s.recheck k).ramp =
        { s.ramp with
          list := s.ramp.list ++ [{ station := s.stationId, district := k, kind := .own }],
          rbDistrict := if (s.rbDone k).ramp.rbDistrict = some k then none else (s.rbDone k).ramp.rbDistrict } := by
  have same := State.recheck_eq k s
  rw [if_pos starts] at same
  rw [same]
  exact ⟨rfl, State.startRamp_of_queued (s := s.rbDone k) starts.1⟩

/-- The RE that the re-check posts instead (R57, R159). -/
theorem State.recheck_posts (barred : ¬ s.startsAtRecheck k) :
    s.recheck k = (s.rbDone k).post (s.frameFor .re k 0) := by
  have same := State.recheck_eq k s
  rw [if_neg barred] at same
  exact same

/-- The re-check leaves no RB district but another than the one named (R157, R158). -/
theorem State.recheck_rbDistrict (named : s.ramp.rbDistrict = none ∨ s.ramp.rbDistrict = some k) :
    (s.recheck k).ramp.rbDistrict = none := by
  have none := State.rbDone_none named
  by_cases starts : s.startsAtRecheck k
  · rw [(State.recheck_starts starts).2.2, none]
    rfl
  · rw [State.recheck_posts starts]
    exact (State.rbDistrict_post _ _).elim (fun same => same.trans none) id

theorem State.length_recheck_le (k : District) (s : State) : (s.recheck k).queue.length ≤ s.queue.length + 1 := by
  by_cases starts : s.startsAtRecheck k
  · rw [(State.recheck_starts starts).2.1]
    exact (List.length_filterMap_le _ s.queue).trans (Nat.le_succ _)
  · rw [State.recheck_posts starts]
    exact State.length_post_le _ (s.rbDone k)

/-- Where all entries wait, a ramp that starts leaves no RB of its district (R53, R137). -/
theorem State.recheck_withdraws (starts : s.startsAtRecheck k) (waiting : ∀ x ∈ s.queue, x.phase = .waiting)
    {x : Entry} (there : x ∈ (s.recheck k).queue) :
    x.phase = .waiting ∧ ¬ (x.frame.kind = .rb ∧ x.frame.loc.district = k) := by
  rw [(State.recheck_starts starts).2.1] at there
  have gone := State.withdraw_gone there
  have still : x.phase = .waiting := by
    obtain ⟨y, hy, left⟩ := List.mem_filterMap.mp there
    unfold Entry.withdrawnFor at left
    rw [waiting y hy] at left
    split at left
    · cases left
    · cases left
      exact waiting _ hy
  exact ⟨still, fun ⟨kind, district⟩ => nomatch still.symm.trans (gone kind district)⟩

/-! ### The re-check behind a settled attempt -/

theorem State.Completed.record (ended : State.Completed s b) (j : District) : b.record j = s.record j :=
  congrArg (fun q => PerDistrict.get q j) ended.unmoved.districts

theorem State.Completed.startsAtRecheck (ended : State.Completed s b) :
    b.startsAtRecheck k ↔ s.startsAtRecheck k := by
  unfold State.startsAtRecheck State.budgetInForce State.budget
  rw [ended.record, ended.unmoved.ramp, ended.unmoved.config]

theorem State.stationId_congr (config : t.config = s.config) : t.stationId = s.stationId := by
  unfold State.stationId
  rw [config]

theorem State.Completed.othersKept_trans (ended : State.Completed s b) (others : State.othersKept k b t) :
    State.othersKept k s t := by
  have engine (j : District) : b.engine j = s.engine j := congrArg (fun q => PerDistrict.get q j) ended.engines
  have relay (j : District) : b.relay j = s.relay j := congrArg (fun q => PerDistrict.get q j) ended.relays
  exact State.othersKept_trans (fun j _ => ⟨ended.record j, engine j, relay j⟩) others

/-- Behind the re-check the unit offers the RB of the district that waits longest (R155, R156). -/
theorem State.Completed.offersNext (ended : State.Completed s b) (run : s.mode = .run)
    (named : s.ramp.rbDistrict = none ∨ s.ramp.rbDistrict = some k) (room : s.queue.length < 7) {j : District}
    (longest : (b.recheck k).chooseAgain.waitsLongest j)
    (below : ((b.recheck k).chooseAgain.record j).w < 65535) : (b.recheck k).chooseAgain.offersRamp j := by
  have mode := State.mode_of_sameOutside (State.onlyDistrict_recheck k b).2
  refine State.chooseAgain_offersNext (mode.trans (ended.unmoved.mode.trans run)) ?_ ?_ longest below
  · exact State.recheck_rbDistrict (by rwa [ended.unmoved.ramp])
  · exact (State.length_recheck_le k b).trans_lt (Nat.succ_lt_succ (ended.length.trans_lt room))

end Sys2Proof.Machine

open Sys2Proof Sys2Proof.Machine

/-- Settles O52: the attempt is settled, the re-check starts the ramp or posts the RE, and the unit chooses again. -/
theorem ownRampBeginRechecked : Obligations.OwnRampBeginRechecked := by
  intro s f run rb sent k passes offersNext
  obtain ⟨b, ended, next⟩ := exec_ownRbCompletion run rb sent
  change exec .ownRbCompletion s = .next (b.recheck k).chooseAgain at next
  have offers : offersNext (b.recheck k).chooseAgain := fun named _ room j longest below =>
    ended.offersNext run named room longest below
  have only := State.onlyDistrict_recheck k b
  have chooses := State.sameOutside_chooseAgain (b.recheck k)
  have idle : (b.recheck k).chooseAgain.line.tx = none := by
    rw [State.line_of_sameOutside chooses, State.line_of_sameOutside only.2, ended.idle]
  have halt : (b.recheck k).chooseAgain.halt = s.halt :=
    (State.halt_of_sameOutside chooses).trans ((State.halt_of_sameOutside only.2).trans ended.unmoved.halt)
  refine ⟨fun starts => ⟨_, next, offers, ?_⟩, fun barred => ⟨_, next, offers, ?_⟩⟩
  · have starts : b.startsAtRecheck k := ended.startsAtRecheck.mpr starts
    obtain ⟨same, _, ramp⟩ := State.recheck_starts starts
    have record : (b.recheck k).record k = (s.record k).toRamping := by
      rw [same, State.record_startRamp, ← ended.record]
      rfl
    have engine : (b.recheck k).engine k = Engine.cleared := by
      rw [same, State.engine_startRamp]
    have alert : (b.recheck k).alert = s.alert := by
      rw [same, State.alert_startRamp, ← ended.alert]
      rfl
    have others := (State.onlyDistrict_trans only (State.onlyDistrict_chooseAgain k (b.recheck k))).1
    have list : (b.recheck k).ramp.list =
        s.ramp.list ++ [{ station := s.stationId, district := k, kind := .own }] := by
      rw [ramp, ended.unmoved.ramp, State.stationId_congr ended.unmoved.config]
    have floor : (b.recheck k).ramp.floor = s.ramp.floor := by rw [ramp, ended.unmoved.ramp]
    have holdoff : (b.recheck k).ramp.holdoff = none := by
      rw [ramp]
      exact starts.2.2
    have waiting : ∀ x ∈ (b.recheck k).chooseAgain.queue, x.phase = .waiting :=
      State.waiting_chooseAgain fun x hx => (State.recheck_withdraws starts ended.waiting hx).1
    have noRb : ∀ x ∈ (b.recheck k).chooseAgain.queue, ¬ (x.frame.kind = .rb ∧ x.frame.loc.district = k) := by
      intro x hx
      rcases State.mem_chooseAgain hx with there | ⟨_, queued⟩
      · exact (State.recheck_withdraws starts ended.waiting there).2
      · rintro ⟨_, district⟩
        rw [district, record] at queued
        cases queued
    have frame := State.chooseAgain_frame (b.recheck k)
    have gate : (b.recheck k).chooseAgain.gate k = true := by
      rw [State.gate_eq, State.record_chooseAgain, record]
      rfl
    have engineAfter : (b.recheck k).chooseAgain.engine k = Engine.cleared := by
      rw [frame]
      exact engine
    rw [State.record_chooseAgain, record]
    refine ⟨rfl, rfl, rfl, gate, engineAfter, idle, ended.othersKept_trans others, fun x hx => ⟨waiting x hx, noRb x hx⟩,
      ?_, ?_, ?_, ?_, halt⟩ <;> rw [frame]
    · exact list
    · exact floor
    · exact holdoff
    · exact alert
  · have barred : ¬ b.startsAtRecheck k := fun starts => barred (ended.startsAtRecheck.mp starts)
    have posts := State.recheck_posts barred
    have entry (room : s.queue.length < 8) : ∃ e ∈ (b.recheck k).queue, e.frame = s.frameFor .re k 0 := by
      obtain ⟨e, rest, posted, frame, _⟩ := State.post_room (p := b.frameFor .re k 0) (s := b.rbDone k)
        (ended.unmoved.mode.trans run) (ended.length.trans_lt room)
      rw [posts, posted]
      exact ⟨e, (mem_insertByRank e e rest).mpr (Or.inl rfl),
        frame.trans (State.frameFor_congr ended.unmoved.config .re k 0)⟩
    have frame := State.chooseAgain_frame (b.recheck k)
    have list : b.ramp.list = s.ramp.list := by rw [ended.unmoved.ramp]
    refine ⟨?_, ?_, ?_, idle, ?_, ?_, halt, fun room => ?_⟩
    case refine_6 =>
      obtain ⟨e, there, isRe⟩ := entry room
      exact ⟨e, State.chooseAgain_keeps_re there (congrArg Post.kind isRe) (congrArg Post.prio isRe), isRe⟩
    all_goals rw [frame]
    all_goals dsimp only
    all_goals rw [posts, State.post_frame]
    · exact ended.unmoved.districts
    · exact ended.engines
    · exact ended.relays
    · exact list
    · exact ended.alert

end

section
/-! PROOFS. The limits of a changeover (R62, R70, R76, R78, R81, R168): the contend timer that flips the district, and
the confirm timer that locks it. -/

namespace Sys2Proof.Machine

variable {k : District} {s t u : State}

/-! ### The contend timer -/

/-- The entry to SWITCHING inverts POLk, and an undriven one counts as low (R70, R78). -/
theorem Relay.switch_eq (r : Relay) :
    r.switch = { r with pol := some (if r.pol = some .high then .low else .high), commanded := true,
                        confirm := some 15000 } := by
  unfold Relay.switch
  cases r.pol with
  | none => rfl
  | some level => cases level <;> rfl

theorem exec_contendTimeout (contend : (s.record k).state = .contend) :
    exec (.contendTimeout k) s = .next (s.enterSwitching k) := congrArg Host.Outcome.next (if_pos contend)

/-! ### The confirm timer -/

/-- The confirm timer of the district is stopped. -/
def State.confirmStopped (k : District) (s : State) : State := s.modRelay k (fun r => { r with confirm := none })

/-- The confirm timer of a confirm-pending district has run out: last fault RELAY, and the latch (R81, R168). -/
def State.confirmMissed (k : District) (s : State) : State :=
  ((s.confirmStopped k).modRecord k (fun d => { d with lastFault := .relay })).setAlert

/-- A confirm-pending district whose timer has run out is given the class LOCKED (R168). -/
def State.pendingFails (k : District) (s : State) : State :=
  (s.confirmMissed k).modRecord k (DistrictRecord.settled .locked)

theorem exec_confirmTimeout_switching (switching : (s.record k).state = .switching) :
    exec (.confirmTimeout k) s = .next ((s.confirmStopped k).lockForRelay k) :=
  congrArg Host.Outcome.next (if_pos switching)

theorem State.leaveHalted_locked (halted : (s.record k).state = .halted) (settled : (s.record k).confirmPending = false)
    (cls : (s.record k).returnClass = .locked) : s.leaveHalted k = s.enterLocked k := by
  unfold State.leaveHalted
  dsimp only
  rw [if_pos ⟨halted, settled⟩, cls]

theorem State.record_pendingFails (k : District) (s : State) :
    (s.pendingFails k).record k = DistrictRecord.settled .locked { s.record k with lastFault := .relay } := by
  have missed : (s.confirmMissed k).record k = { s.record k with lastFault := .relay } :=
    State.record_modRecord_self k (fun d => { d with lastFault := .relay }) (s.confirmStopped k)
  unfold State.pendingFails
  rw [State.record_modRecord_self, missed]

theorem State.pendingFails_beside (k : District) (s : State) :
    (s.pendingFails k).queue = s.queue ∧ (s.pendingFails k).ramp = s.ramp ∧ (s.pendingFails k).alert = true :=
  ⟨rfl, rfl, rfl⟩

/-- A confirm-pending district stays for the halt, and a station not halted lets it into LOCKED (R168, R171). -/
theorem exec_confirmTimeout_pending (halted : (s.record k).state = .halted)
    (isPending : (s.record k).confirmPending = true) :
    exec (.confirmTimeout k) s =
      .next (if s.halted then s.pendingFails k else (s.pendingFails k).enterLocked k) := by
  have runsOut : s.confirmRunsOut k = (s.confirmMissed k).settlePending k .locked := by
    unfold State.confirmRunsOut
    dsimp only
    rw [if_neg (by rw [halted]; decide), if_pos (DistrictRecord.pendingInHalt_iff.mpr ⟨halted, isPending⟩)]
    rfl
  have missed : (s.confirmMissed k).halted = s.halted := rfl
  have record := State.record_pendingFails k s
  refine congrArg Host.Outcome.next (runsOut.trans ?_)
  cases station : s.halted with
  | true => exact State.settlePending_halted (missed.trans station) k .locked
  | false =>
    exact (State.settlePending_running (missed.trans station) k .locked).trans
      (State.leaveHalted_locked (s := s.pendingFails k) (by rw [record]; exact halted) (by rw [record]; rfl)
        (by rw [record]; rfl))

theorem State.onlyDistrict_pendingFails (k : District) (s : State) : State.onlyDistrict k s (s.pendingFails k) :=
  State.onlyDistrict_trans
    (State.onlyDistrict_trans
      (State.onlyDistrict_trans (State.onlyDistrict_modRelay k _ s) (State.onlyDistrict_modRecord k _ _))
      (State.onlyDistrict_setAlert k _))
    (State.onlyDistrict_modRecord k _ _)

end Sys2Proof.Machine

open Sys2Proof Sys2Proof.Machine

/-- Settles O29: the contend timer comes to the entry to SWITCHING; the confirm timer to a relay fault that locks, or to
the class LOCKED. -/
theorem changeoverLimitsRunOut : Obligations.ChangeoverLimitsRunOut := by
  intro s k
  refine ⟨fun contend => ?_, fun switching => ?_, fun halted isPending => ?_⟩
  · have departs := State.depart_of_contend contend
    have queue : (s.enterSwitching k).queue = (s.withdraw .fi k).queue := by
      rw [State.queue_enterSwitching, departs]
    have ramp : (s.enterSwitching k).ramp = s.ramp := by
      rw [State.ramp_enterSwitching, departs]
      rfl
    have record := State.record_enterSwitching k s
    refine ⟨_, exec_contendTimeout contend, State.onlyDistrict_enterSwitching k s, ramp, State.alert_enterSwitching k s,
      ?_, record, ?_, ?_, ?_⟩
    · rw [State.gate_eq, record]
      rfl
    · rw [State.relay_enterSwitching, Relay.switch_eq]
    · rw [queue]
      exact fun e => State.withdraw_gone
    · rw [queue]
      exact fun e => State.withdraw_keeps
  · have only := State.onlyDistrict_modRelay k (fun r => { r with confirm := none }) s
    have state : ((s.confirmStopped k).record k).state = .switching := switching
    have locks := State.relayLocks_lockForRelay (s := s.confirmStopped k) (k := k) (by rw [state]; decide)
      (by rw [state]; decide) (by rw [state]; decide)
    have record := State.record_lockForRelay k (s.confirmStopped k)
    refine ⟨_, exec_confirmTimeout_switching switching, State.onlyDistrict_trans only locks.only, ?_, ?_, ?_, ?_,
      locks.alert, locks.relay.trans (State.relay_setRelay_self s k _), locks.queue, locks.rampKept⟩ <;> rw [record] <;>
      rfl
  · have only := State.onlyDistrict_pendingFails k s
    have record := State.record_pendingFails k s
    obtain ⟨queue, ramp, alert⟩ := State.pendingFails_beside k s
    refine ⟨_, exec_confirmTimeout_pending halted isPending, ?_⟩
    generalize s.pendingFails k = v at *
    cases s.halted with
    | true =>
      rw [if_pos rfl, record]
      exact ⟨only, rfl, rfl, rfl, rfl, alert, queue, ramp, halted⟩
    | false =>
      have state : (v.record k).state = .halted := by
        rw [record]
        exact halted
      have still : v.depart k = v :=
        State.depart_unmoved (by rw [state]; decide) (by rw [state]; decide) (by rw [state]; decide)
      rw [if_neg Bool.false_ne_true, State.record_enterLocked, record, State.queue_enterLocked, State.ramp_enterLocked,
        still]
      exact ⟨State.onlyDistrict_trans only (State.onlyDistrict_enterLocked k v), rfl, rfl, rfl, rfl,
        State.alert_enterLocked k v, queue, ramp, rfl⟩

end

section
/-! PROOFS. A CNFk level that differs from POLk outside a changeover (R58, R85): the reading, the fault by the state of
the district, and the TR of one that locks (R45). -/

namespace Sys2Proof.Machine

variable {k : District} {s c t : State}

/-! ### A relay fault that locks, from any state -/

/-- The TR that a relay fault posts: RELAY, and n as it was (R45, R85). -/
def State.relayTr (s : State) (k : District) : Post := s.frameFor .tr k (96 + (s.record k).n)

/-- The district stands LOCKED with RELAY, and its TR is still to be posted. -/
def State.lockedForRelay (k : District) (s : State) : State :=
  (s.modRecord k (fun d => { d with lastFault := .relay })).enterLocked k

theorem State.record_lockedForRelay (k : District) (s : State) :
    (s.lockedForRelay k).record k = { s.record k with lastFault := .relay }.toLocked := by
  unfold State.lockedForRelay
  rw [State.record_enterLocked, State.record_modRecord_self]

theorem State.onlyDistrict_lockedForRelay (k : District) (s : State) : State.onlyDistrict k s (s.lockedForRelay k) :=
  State.onlyDistrict_trans (State.onlyDistrict_modRecord k _ s) (State.onlyDistrict_enterLocked k _)

theorem State.lockForRelay_eq (k : District) (s : State) :
    s.lockForRelay k = (s.lockedForRelay k).post (s.relayTr k) := by
  have record := State.record_lockedForRelay k s
  have posts := State.postTr_eq (s := s.lockedForRelay k) (k := k) (fault := .relay) (n := (s.record k).n)
    (by rw [record]; rfl) (by rw [record]; rfl)
  rwa [State.frameFor_congr (State.config_of_sameOutside (State.onlyDistrict_lockedForRelay k s).2)] at posts

/-- A relay fault that locks takes along what its state holds, and nothing more (R52, R76, R137, R149). -/
theorem State.lockedForRelay_departs (k : District) (s : State) :
    (s.lockedForRelay k).queue = (s.depart k).queue ∧ (s.lockedForRelay k).ramp = (s.depart k).ramp := by
  unfold State.lockedForRelay
  rw [State.queue_enterLocked, State.ramp_enterLocked]
  exact ⟨State.queue_depart_setRecord rfl, State.ramp_depart_setRecord rfl⟩

theorem State.mode_depart (k : District) (s : State) : (s.depart k).mode = s.mode :=
  State.mode_of_sameOutside (State.onlyDistrict_depart k s).2

/-- The TR is posted behind the withdrawals of the departure (R137). -/
theorem State.queue_lockForRelay (k : District) (s : State) :
    (s.lockForRelay k).queue = (s.depart k).queueWith (s.relayTr k) := by
  have mode := State.mode_of_sameOutside (State.onlyDistrict_lockedForRelay k s).2
  rw [State.lockForRelay_eq, State.queue_post]
  exact State.queueWith_congr (mode.trans (State.mode_depart k s).symm) (State.lockedForRelay_departs k s).1 _

theorem State.rbDistrict_lockForRelay (k : District) (s : State) :
    (s.lockForRelay k).ramp.rbDistrict = ((s.depart k).post (s.relayTr k)).ramp.rbDistrict := by
  have mode := State.mode_of_sameOutside (State.onlyDistrict_lockedForRelay k s).2
  obtain ⟨queue, ramp⟩ := State.lockedForRelay_departs k s
  rw [State.lockForRelay_eq]
  exact State.rbDistrict_post_congr (mode.trans (State.mode_depart k s).symm) queue
    (congrArg RampUnit.rbDistrict ramp) _

theorem State.list_lockForRelay (k : District) (s : State) :
    (s.lockForRelay k).ramp.list = (s.depart k).ramp.list := by
  rw [State.lockForRelay_eq, State.list_post, (State.lockedForRelay_departs k s).2]

theorem State.engine_lockForRelay (k : District) (s : State) : (s.lockForRelay k).engine k = Engine.cleared := by
  rw [State.lockForRelay_eq, State.engine_post]
  exact State.engine_moveOff k DistrictRecord.toLocked _

theorem State.relay_lockForRelay (k : District) (s : State) : (s.lockForRelay k).relay k = s.relay k := by
  rw [State.lockForRelay_eq, State.relay_post]
  exact State.relay_moveOff k k DistrictRecord.toLocked _

/-- A departure adds nothing to the queue. -/
theorem State.length_depart_le (k : District) (s : State) : (s.depart k).queue.length ≤ s.queue.length := by
  unfold State.depart
  cases (s.record k).state with
  | queued => exact List.length_filterMap_le _ s.queue
  | contend => exact List.length_filterMap_le _ s.queue
  | halted | dark | live | cooling | probing | ramping | switching | locked => exact Nat.le_refl _

/-- A queue with room takes the TR (R132). -/
theorem State.lockForRelay_room (run : s.mode = .run) (room : s.queue.length < Config.NQUEUE) :
    ∃ e ∈ (s.lockForRelay k).queue, e.frame = s.relayTr k := by
  obtain ⟨e, rest, posted, frame, _⟩ := postInto_room (p := s.relayTr k)
    ((State.length_depart_le k s).trans_lt room)
  rw [State.queue_lockForRelay, State.queueWith, if_pos ((State.mode_depart k s).trans run), posted]
  exact ⟨e, (mem_insertByRank e e rest).mpr (Or.inl rfl), frame⟩

theorem State.mem_queueWith {p : Post} {x : Entry} (h : x ∈ s.queueWith p) : x ∈ s.queue ∨ x.frame = p := by
  rw [← State.queue_post] at h
  exact State.mem_post h

/-- A district that locks in CONTEND has its FI withdrawn, and one that locks in QUEUED its RB (R52, R76, R137). -/
theorem State.withdrawn_lockForRelay {kind : Kind}
    (pairs : kind = .fi ∧ (s.record k).state = .contend ∨ kind = .rb ∧ (s.record k).state = .queued) {x : Entry}
    (h : x ∈ (s.lockForRelay k).queue) (hk : x.frame.kind = kind) (hd : x.frame.loc.district = k) :
    x.phase = .onLine .withdrawn := by
  rw [State.queue_lockForRelay] at h
  rcases State.mem_queueWith h with left | tr
  · rcases pairs with ⟨rfl, state⟩ | ⟨rfl, state⟩
    · rw [State.depart_of_contend state] at left
      exact State.withdraw_gone left hk hd
    · rw [State.depart_of_queued state] at left
      exact State.withdraw_gone (s := s) (kind := .rb) left hk hd
  · rw [tr] at hk
    rcases pairs with ⟨rfl, _⟩ | ⟨rfl, _⟩ <;> cases hk

/-- What it withdraws stays withdrawn through what follows. -/
theorem State.withdrawn_followUp_lockForRelay (before : State) {kind : Kind}
    (pairs : kind = .fi ∧ (s.record k).state = .contend ∨ kind = .rb ∧ (s.record k).state = .queued) :
    ∀ x ∈ (State.followUp before (s.lockForRelay k)).queue, x.frame.kind = kind → x.frame.loc.district = k →
      x.phase = .onLine .withdrawn := by
  intro x hx hk hd
  rcases State.mem_followUp hx with there | gone | ⟨_, queued⟩
  · exact State.withdrawn_lockForRelay pairs there hk hd
  · exact gone
  · rw [hd, State.record_lockForRelay] at queued
    cases queued

/-! ### Postings and the frames ahead of them -/

/-- Kinds go before all else in rank (R131). -/
theorem Post.rank_lt_of_code {p r : Post} (h : p.kind.code < r.kind.code) : p.rank < r.rank := by
  have loc := Where.code_lt p.loc
  have prio := p.prio.isLt
  unfold Post.rank
  omega

/-- A posting drops and replaces no frame of a kind ahead of its own (R131, R132, R134). -/
theorem State.mem_queueWith_of_code_lt {p : Post} {x : Entry} (there : x ∈ s.queue)
    (ahead : x.frame.kind.code < p.kind.code) : x ∈ s.queueWith p := by
  have spared : p.replaces x.frame = false := by
    unfold Post.replaces
    rw [beq_false_of_ne fun same => Nat.lt_irrefl _ (same ▸ ahead), Bool.false_and]
  unfold State.queueWith
  split
  · exact mem_postInto_of_rank_lt there spared (Post.rank_lt_of_code ahead)
  · exact there

/-- The RB of a choice drops no FI, TR and RE (R131, R134). -/
theorem State.chooseAgain_keeps {x : Entry} (there : x ∈ s.queue) (ahead : x.frame.kind.code < 3) :
    x ∈ s.chooseAgain.queue := by
  rcases State.queue_chooseAgain s with same | ⟨j, run, same⟩ <;> rw [same]
  · exact there
  · have posted : s.queueWith (s.rbPost j) = (postInto (s.rbPost j) s.queue).queue := if_pos run
    rw [← posted]
    exact State.mem_queueWith_of_code_lt there ahead

/-- In RUN at most a choice follows a command (R155, R161). -/
theorem State.followUp_in_run (before : State) (run : s.mode = .run) :
    State.followUp before s = s ∨ State.followUp before s = s.chooseAgain := by
  have chosen : s.chooseAgain.mode = s.mode := State.mode_of_sameOutside (State.sameOutside_chooseAgain s)
  refine (State.followUp_cases before s).imp (fun same => ?_) fun same => ?_ <;>
    rw [same, State.directStart_outside_quiet]
  · rw [run]
    decide
  · rw [chosen, run]
    decide

theorem State.followUp_keeps (before : State) (run : s.mode = .run) {x : Entry} (there : x ∈ s.queue)
    (ahead : x.frame.kind.code < 3) : x ∈ (State.followUp before s).queue := by
  rcases State.followUp_in_run before run with same | same <;> rw [same]
  · exact there
  · exact State.chooseAgain_keeps there ahead

/-! ### The fault by the state of the district -/

theorem State.relayFault_locks (notHalted : (s.record k).state ≠ .halted) (notLocked : (s.record k).state ≠ .locked)
    (notSwitching : (s.record k).state ≠ .switching) : s.relayFault k = s.lockForRelay k := by
  unfold State.relayFault
  dsimp only
  cases state : (s.record k).state with
  | halted => exact absurd state notHalted
  | locked => exact absurd state notLocked
  | switching => exact absurd state notSwitching
  | live | ramping | probing | cooling | queued | contend | dark => rfl

theorem State.relayFault_locked (locked : (s.record k).state = .locked) :
    s.relayFault k = s.setRecord k { s.record k with lastFault := .relay } := by
  simp only [State.relayFault, locked, State.modRecord_eq]

theorem State.relayFault_halted (halted : (s.record k).state = .halted)
    (settled : (s.record k).confirmPending = false) :
    s.relayFault k = s.setRecord k { s.record k with lastFault := .relay, returnClass := .locked } := by
  simp only [State.relayFault, halted, settled, State.modRecord_eq, Bool.false_eq_true, if_false]

theorem State.relayFault_pending (halted : (s.record k).state = .halted)
    (isPending : (s.record k).confirmPending = true) :
    s.relayFault k = s := by
  simp only [State.relayFault, halted, isPending, if_true]

theorem State.relay_relayFault (k : District) (s : State) : (s.relayFault k).relay k = s.relay k := by
  have locks := State.relay_lockForRelay k s
  unfold State.relayFault
  dsimp only
  cases (s.record k).state with
  | halted =>
    dsimp only
    split <;> rfl
  | locked | switching => rfl
  | live | ramping | probing | cooling | queued | contend | dark => exact locks

/-! ### The level that differs -/

/-- A reading that differs from a driven POLk outside SWITCHING is a fault by the state of the district (R85). -/
theorem State.judgeReading_differs {level pol : Level} (reversing : (s.record k).reversing = true)
    (read : (s.relay k).cnf = some level) (driven : (s.relay k).pol = some pol) (differs : level ≠ pol)
    (notSwitching : (s.record k).state ≠ .switching) : s.judgeReading k = s.relayFault k := by
  have unequal : ((s.relay k).cnf == (s.relay k).pol) = false := by
    rw [read, driven]
    exact beq_false_of_ne fun same => differs (Option.some.inj same)
  have disagrees : s.relayDisagrees k = true := by
    unfold State.relayDisagrees
    rw [reversing, read, driven]
    exact bne_iff_ne.mpr differs
  unfold State.judgeReading
  dsimp only
  rw [if_neg notSwitching, unequal, disagrees]
  cases inHalt : (s.record k).pendingInHalt with
  | true =>
    obtain ⟨halted, isPending⟩ := DistrictRecord.pendingInHalt_iff.mp inHalt
    exact (State.relayFault_pending halted isPending).symm
  | false => rfl

/-- The debounced level of district k is read, and nothing has come of it yet (R69). -/
structure State.LevelRead (k : District) (level : Level) (s c : State) : Prop where
  unmoved : s.Unmoved c
  queue : c.queue = s.queue
  alert : c.alert = s.alert
  others : State.othersKept k s c
  relay : c.relay k = { s.relay k with cnf := some level }

theorem State.LevelRead.record {level : Level} (read : State.LevelRead k level s c) (j : District) :
    c.record j = s.record j := congrArg (fun q => PerDistrict.get q j) read.unmoved.districts

/-- The debounced level that differs from POLk comes to the fault of the district. -/
theorem exec_debounceExpiry_differs (held : (s.qualifier (.cnf k)).held.isSome = true)
    (reversing : (s.record k).reversing = true) (driven : (s.relay k).pol = some ((s.qualifier (.cnf k)).raw.invert))
    (notSwitching : (s.record k).state ≠ .switching) :
    ∃ c, State.LevelRead k (s.qualifier (.cnf k)).raw s c ∧
      exec (.debounceExpiry (.cnf k)) s = .next (State.followUp s (c.relayFault k)) := by
  let a : State := s.setQualifier (.cnf k) (s.qualifier (.cnf k)).expired
  let r : Relay := { s.relay k with cnf := some (s.qualifier (.cnf k)).raw }
  have unmoved : s.Unmoved a := State.unmoved_setQualifier s _ _
  have relay (j : District) : a.relay j = s.relay j := rfl
  have judged : a.cnfDelivered k (s.qualifier (.cnf k)).raw = (a.setRelay k r).judgeReading k :=
    State.cnfDelivered_driven (s := a) reversing (by rw [relay, driven]; exact nofun) _
  have faulty : (a.setRelay k r).judgeReading k = (a.setRelay k r).relayFault k := by
    have set : (a.setRelay k r).relay k = r := State.relay_setRelay_self a k r
    exact State.judgeReading_differs (level := (s.qualifier (.cnf k)).raw)
      (pol := (s.qualifier (.cnf k)).raw.invert) reversing (by rw [set]) (by rw [set]; exact driven)
      (Level.ne_invert _) notSwitching
  refine ⟨a.setRelay k r, ⟨unmoved.trans (State.unmoved_setRelay a k r), rfl, rfl,
    fun j other => ⟨rfl, rfl, State.relay_setRelay_other a other r⟩, State.relay_setRelay_self a k r⟩, ?_⟩
  rw [exec_debounceExpiry, State.debounceExpiry_held held, ← faulty, ← judged]
  rfl

/-! ### What follows the fault -/

/-- The direct start of another district finds the queue of QUIET empty, and leaves any other (R132, R161). -/
theorem State.StartsOther.queue_of_queueOk {m : State} (starts : State.StartsOther k m t) (ok : s.QueueOk)
    (mode : m.mode = s.mode) (queue : m.queue = s.queue) : t.queue = s.queue := by
  obtain ⟨_, _, _, _, _, _, empty⟩ := ok
  by_cases quiet : s.mode = .quiet
  · have none : s.queue = [] := empty (by rw [quiet]; decide)
    rw [none] at queue ⊢
    exact starts.emptyQueue queue
  · rw [starts.outsideQuiet (by rwa [mode]), queue]

/-- A fault that changes at most the record of a district which stays where it is leaves the latch and the queue. -/
theorem State.LevelRead.stays {level : Level} (read : State.LevelRead k level s c) (ok : s.QueueOk) {d : DistrictRecord}
    (fault : c.relayFault k = c.setRecord k d) (before : (s.record k).state ≠ .queued) (after : d.state ≠ .queued) :
    (State.followUp s (c.relayFault k)).record k = d ∧ (State.followUp s (c.relayFault k)).alert = s.alert ∧
      (State.followUp s (c.relayFault k)).queue = s.queue := by
  have record := State.record_setRecord_self c k d
  have starts := State.startsOther_followUp read.unmoved (State.onlyDistrict_setRecord k d c) before
    (by rwa [record])
  rw [fault]
  exact ⟨starts.record.trans record, starts.alert.trans read.alert,
    starts.queue_of_queueOk ok read.unmoved.mode read.queue⟩

theorem State.LevelRead.relayTr {level : Level} (read : State.LevelRead k level s c) : c.relayTr k = s.relayTr k := by
  unfold State.relayTr
  rw [State.frameFor_congr read.unmoved.config, read.record]

/-- A district that locks away from CONTEND and QUEUED has its TR placed in the queue as it was (R45, R131 to R134). -/
theorem State.LevelRead.places {level : Level} (read : State.LevelRead k level s c) (ok : s.QueueOk)
    (notContend : (s.record k).state ≠ .contend) (notQueued : (s.record k).state ≠ .queued) :
    s.places (s.relayTr k) (State.followUp s (c.lockForRelay k)) := by
  have only := State.onlyDistrict_lockForRelay k c
  have notContend' : (c.record k).state ≠ .contend := by rwa [read.record]
  have notQueued' : (c.record k).state ≠ .queued := by rwa [read.record]
  have mode := (State.mode_depart k c).trans read.unmoved.mode
  have queue := (State.queue_depart notQueued' notContend').trans read.queue
  have rbDistrict : (c.depart k).ramp.rbDistrict = s.ramp.rbDistrict := by
    rw [State.rbDistrict_depart notQueued', read.unmoved.ramp]
  have tr := read.relayTr
  refine State.places_of_startsOther ok ((State.mode_of_sameOutside only.2).trans read.unmoved.mode) ?_ ?_
    (State.startsOther_followUp read.unmoved only notQueued ?_)
  · rw [State.queue_lockForRelay, tr, State.queueWith_congr mode queue]
  · rw [State.rbDistrict_lockForRelay, tr, State.rbDistrict_post_congr mode queue rbDistrict]
  · rw [State.record_lockForRelay]
    exact nofun

end Sys2Proof.Machine

open Sys2Proof Sys2Proof.Machine

/-- Settles O24: by the fault of each state, with the TR of a district that locks and what it withdraws. -/
theorem uncommandedRelayFaults : Obligations.UncommandedRelayFaults := by
  intro s k held reversing driven notSwitching ok d tr
  obtain ⟨c, read, next⟩ := exec_debounceExpiry_differs held reversing driven notSwitching
  have state : (c.record k).state = d.state := congrArg DistrictRecord.state (read.record k)
  refine ⟨_, next, ?_, fun notQuiet => ?_, fun notHalted notLocked => ?_, fun halted settled => ?_,
    fun halted isPending => ?_, fun locked => ?_⟩
  · rw [State.relay_followUp, State.relay_relayFault, read.relay]
  · have only := State.onlyDistrict_relayFault k c
    have follows := State.onlyDistrict_followUp_outside_quiet (s := c.relayFault k) s
      (by rw [State.mode_of_sameOutside only.2, read.unmoved.mode]; exact notQuiet) k
    exact State.othersKept_trans read.others (State.onlyDistrict_trans only follows).1
  · have locks : c.relayFault k = c.lockForRelay k :=
      State.relayFault_locks (by rwa [state]) (by rwa [state]) (by rwa [state])
    have record : (c.lockForRelay k).record k = { d with lastFault := .relay }.toLocked := by
      rw [State.record_lockForRelay, read.record]
    obtain ⟨recordAfter, engineAfter, _, ownEntryAfter⟩ :=
      State.followUp_spares (s := c.lockForRelay k) (k := k) s (by rw [record]; exact nofun)
    have mode : (c.lockForRelay k).mode = s.mode :=
      (State.mode_of_sameOutside (State.onlyDistrict_lockForRelay k c).2).trans read.unmoved.mode
    rw [locks, State.gate_eq, recordAfter, engineAfter, ownEntryAfter, State.alert_followUp, record]
    refine ⟨rfl, rfl, rfl, rfl, State.alert_lockForRelay k c, rfl, State.engine_lockForRelay k c, fun ramping => ?_,
      read.places ok, fun _ run room => ?_,
      fun queued => State.withdrawn_followUp_lockForRelay s (Or.inr ⟨rfl, state.trans queued⟩),
      fun contend => State.withdrawn_followUp_lockForRelay s (Or.inl ⟨rfl, state.trans contend⟩)⟩
    · exact State.hasOwnEntry_of_departed (state.trans ramping) (State.list_lockForRelay k c)
    · obtain ⟨e, there, frame⟩ := State.lockForRelay_room (s := c) (k := k) (read.unmoved.mode.trans run)
        (by rwa [read.queue])
      rw [read.relayTr] at frame
      exact ⟨e, State.followUp_keeps s (mode.trans run) there
        (by rw [frame]; exact (by decide : 1 < 3)), frame⟩
  · obtain ⟨record, alert, queue⟩ := read.stays ok
      (State.relayFault_halted (state.trans halted) (by rw [read.record]; exact settled))
      (fun queued => nomatch halted.symm.trans queued)
      (fun queued => nomatch (state.trans halted).symm.trans queued)
    rw [read.record] at record
    exact ⟨record, alert, queue⟩
  · have isPending' : (c.record k).confirmPending = true := by rwa [read.record]
    have notQueued : (s.record k).state ≠ .queued := fun queued => nomatch halted.symm.trans queued
    have starts := State.startsOther_followUp read.unmoved (State.onlyDistrict_refl k c) notQueued
      (by rwa [read.record])
    rw [State.relayFault_pending (state.trans halted) isPending', starts.record]
    exact ⟨read.record k, starts.queue_of_queueOk ok read.unmoved.mode read.queue⟩
  · obtain ⟨record, alert, queue⟩ := read.stays ok (State.relayFault_locked (state.trans locked))
      (fun queued => nomatch locked.symm.trans queued)
      (fun queued => nomatch (state.trans locked).symm.trans queued)
    rw [read.record] at record
    exact ⟨record, queue, alert⟩

end

section
/-! PROOFS. A flip intent of the group (R73 to R75, R82, R87, R88, R126, R137, R153): what each district makes of it,
what it leaves of the queue, and the accepted FI of another station. -/

namespace Sys2Proof.Machine

variable {k : District} {s b m t u : State} {own : Option District}

/-! ### The step of a district -/

theorem State.pardonOnIntent_of_notCooling (notCooling : (s.record k).state ≠ .cooling) : s.pardonOnIntent k = s := by
  unfold State.pardonOnIntent DistrictRecord.pardonable
  rw [beq_false_of_ne notCooling]
  rfl

/-- A district that is not in CONTEND has at most a pardon of an intent (R87). -/
theorem State.hears_outside_contend (own : Option District) (notContend : (s.record k).state ≠ .contend) :
    State.districtHearsIntent own k s = s.pardonOnIntent k := by
  have deaf : s.hearIntentInContend k = s := if_neg fun hears => notContend hears.1
  unfold State.districtHearsIntent
  rw [if_neg fun wins => notContend wins.2, deaf, ite_self]

/-- The district that an own FI names wins its flip (R73). -/
theorem State.hears_wins (contend : (s.record k).state = .contend) :
    State.districtHearsIntent (some k) k s = s.enterSwitching k := if_pos ⟨rfl, contend⟩

/-- The record of a contending district at its yield (R74, R83). -/
def State.yielding (k : District) (s : State) : State := s.setRecord k { s.record k with yielded := true }

theorem State.record_yielding (k : District) (s : State) :
    (s.yielding k).record k = { s.record k with yielded := true } := State.record_setRecord_self s k _

theorem State.relayDisagrees_yielding (k : District) (s : State) :
    (s.yielding k).relayDisagrees k = s.relayDisagrees k :=
  State.relayDisagrees_congr (by rw [State.record_yielding]) rfl

/-- The yield of a district is read of its own record and relay (R74, R85). -/
theorem State.yielded_congr (record : u.record k = s.record k) (relay : u.relay k = s.relay k) :
    (u.yielding k).recordAfterExit .yield k = (s.yielding k).recordAfterExit .yield k := by
  unfold State.recordAfterExit
  rw [State.relayDisagrees_yielding, State.relayDisagrees_yielding, State.record_yielding, State.record_yielding,
    record, State.relayDisagrees_congr (by rw [record]) relay]

/-- The record of a district that yields, by its origin (R74, R83). -/
theorem State.recordAfterExit_yielding (k : District) (s : State) :
    let d : DistrictRecord := { s.record k with yielded := true }
    ((s.record k).origin = .live → (s.yielding k).recordAfterExit .yield k = d.toLive .yield) ∧
      ((s.record k).origin = .ramp → (s.yielding k).recordAfterExit .yield k = d.toQueued) ∧
      ((s.record k).origin = .probe →
        (s.yielding k).recordAfterExit .yield k = d.probesOrLocks (s.relayDisagrees k)) := by
  unfold State.recordAfterExit
  rw [State.record_yielding, State.relayDisagrees_yielding]
  dsimp only
  refine ⟨fun origin => ?_, fun origin => ?_, fun origin => ?_⟩ <;> rw [origin]

/-- No exit by origin leads to COOLING (R74, R80). -/
theorem State.exit_notCooling (watch : WatchKind) (s : State) (k : District) :
    (s.recordAfterExit watch k).state ≠ .cooling := by
  unfold State.recordAfterExit DistrictRecord.probesOrLocks
  cases (s.record k).origin with
  | live => exact nofun
  | ramp => exact nofun
  | probe =>
    dsimp only
    split <;> exact nofun

/-- A contending district yields once (R74, R75). -/
theorem State.hears_contends (other : own ≠ some k) (contend : (s.record k).state = .contend) :
    State.districtHearsIntent own k s =
      if (s.record k).yielded then s else (s.yielding k).exitByOrigin k .yield := by
  unfold State.districtHearsIntent
  rw [if_neg fun wins => other wins.1, if_neg other]
  cases yielded : (s.record k).yielded with
  | true =>
    have goesOn : s.hearIntentInContend k = s := if_neg fun hears => Bool.false_ne_true (hears.2.symm.trans yielded)
    rw [goesOn, State.pardonOnIntent_of_notCooling (by rw [contend]; decide), if_pos rfl]
  | false =>
    have yields : s.hearIntentInContend k = (s.yielding k).exitByOrigin k .yield := if_pos ⟨contend, yielded⟩
    rw [yields, if_neg Bool.false_ne_true, State.pardonOnIntent_of_notCooling]
    rw [State.record_exitByOrigin]
    exact State.exit_notCooling .yield _ k

/-- What a district can make of an intent: a pardon or nothing, the flip that its own FI wins, or its yield (R73 to R75,
R87). -/
theorem State.hears_cases (own : Option District) (k : District) (s : State) :
    State.districtHearsIntent own k s = s.pardonOnIntent k ∨
      (s.record k).state = .contend ∧ State.districtHearsIntent own k s = s.enterSwitching k ∨
      (s.record k).state = .contend ∧ State.districtHearsIntent own k s = (s.yielding k).exitByOrigin k .yield := by
  by_cases contend : (s.record k).state = .contend
  · by_cases wins : own = some k
    · rw [wins]
      exact Or.inr (Or.inl ⟨contend, State.hears_wins contend⟩)
    · rw [State.hears_contends wins contend]
      cases (s.record k).yielded with
      | true =>
        rw [if_pos rfl, State.pardonOnIntent_of_notCooling (by rw [contend]; decide)]
        exact Or.inl rfl
      | false => exact Or.inr (Or.inr ⟨contend, rfl⟩)
  · exact Or.inl (State.hears_outside_contend own contend)

/-! ### What an exit by origin takes along -/

theorem State.engine_exitByOrigin (k : District) (watch : WatchKind) (s : State) :
    (s.exitByOrigin k watch).engine k = Engine.cleared := by
  unfold State.exitByOrigin
  cases (s.record k).origin with
  | live => exact State.engine_moveOff k (DistrictRecord.toLive watch) s
  | ramp => exact State.engine_moveOff k DistrictRecord.toQueued s
  | probe =>
    dsimp only
    cases disagrees : s.relayDisagrees k with
    | false =>
      rw [State.enterProbing_agrees disagrees]
      exact State.engine_moveOff k DistrictRecord.toProbing s
    | true =>
      rw [State.enterProbing_disagrees disagrees]
      exact State.engine_lockForRelay k _

/-- A district that leaves CONTEND by its origin withdraws its FI, and posts a TR where its relay is found to disagree
(R74, R76, R80, R85). -/
theorem State.queue_exitByOrigin (contend : (s.record k).state = .contend) (watch : WatchKind) :
    (s.exitByOrigin k watch).queue = (s.withdraw .fi k).queue ∨
      ∃ p : Post, p.kind = .tr ∧ (s.exitByOrigin k watch).queue = (s.withdraw .fi k).queueWith p := by
  have moved (f : DistrictRecord → DistrictRecord) : (s.moveOff k f).queue = (s.withdraw .fi k).queue := by
    rw [State.queue_moveOff, State.depart_of_contend contend]
  unfold State.exitByOrigin
  cases (s.record k).origin with
  | live => exact Or.inl (moved _)
  | ramp => exact Or.inl (moved _)
  | probe =>
    dsimp only
    cases disagrees : s.relayDisagrees k with
    | false =>
      rw [State.enterProbing_agrees disagrees]
      exact Or.inl (moved _)
    | true =>
      have state : ((s.moveOff k DistrictRecord.toProbing).record k).state = .probing := by
        rw [State.record_moveOff]
        rfl
      have mode := State.mode_of_sameOutside (State.onlyDistrict_moveOff k DistrictRecord.toProbing s).2
      rw [State.enterProbing_disagrees disagrees, State.queue_lockForRelay,
        State.depart_unmoved (by rw [state]; decide) (by rw [state]; decide) (by rw [state]; decide)]
      exact Or.inr ⟨_, rfl, State.queueWith_congr (s := s.withdraw .fi k) mode (moved _) _⟩

theorem State.ownCut_exitByOrigin (k : District) (watch : WatchKind) (s : State) :
    s.ramp.OwnCut (s.exitByOrigin k watch).ramp := by
  have moved (f : DistrictRecord → DistrictRecord) : s.ramp.OwnCut (s.moveOff k f).ramp := State.ownCut_depart k s
  unfold State.exitByOrigin
  cases (s.record k).origin with
  | live => exact moved _
  | ramp => exact moved _
  | probe =>
    dsimp only
    cases disagrees : s.relayDisagrees k with
    | false =>
      rw [State.enterProbing_agrees disagrees]
      exact moved _
    | true =>
      rw [State.enterProbing_disagrees disagrees, State.lockForRelay_eq]
      refine RampUnit.OwnCut.trans ?_ (State.ownCut_post _ _)
      rw [(State.lockedForRelay_departs k _).2]
      exact (moved _).trans (State.ownCut_depart k _)

/-- An exit by origin never clears the latch (R193, R195). -/
theorem State.alert_exitByOrigin (k : District) (watch : WatchKind) (latched : s.alert = true) :
    (s.exitByOrigin k watch).alert = true := by
  unfold State.exitByOrigin
  cases (s.record k).origin with
  | live => exact (State.alert_moveOff k (DistrictRecord.toLive watch) s).trans latched
  | ramp => exact (State.alert_moveOff k DistrictRecord.toQueued s).trans latched
  | probe =>
    dsimp only
    rw [State.alert_enterProbing, latched, Bool.or_true]

/-! ### What an intent does beside the districts -/

theorem State.ownCut_districtHearsIntent (own : Option District) (k : District) (s : State) :
    s.ramp.OwnCut (State.districtHearsIntent own k s).ramp := by
  rcases State.hears_cases own k s with same | ⟨_, same⟩ | ⟨_, same⟩ <;> rw [same]
  · unfold State.pardonOnIntent
    split <;> exact RampUnit.OwnCut.refl s.ramp
  · rw [State.ramp_enterSwitching]
    exact State.ownCut_depart k s
  · exact State.ownCut_exitByOrigin k .yield (s.yielding k)

theorem State.alert_districtHearsIntent (own : Option District) (k : District) (s : State) (latched : s.alert = true) :
    (State.districtHearsIntent own k s).alert = true := by
  rcases State.hears_cases own k s with same | ⟨_, same⟩ | ⟨_, same⟩ <;> rw [same]
  · unfold State.pardonOnIntent
    split <;> exact latched
  · rw [State.alert_enterSwitching, latched]
  · exact State.alert_exitByOrigin k .yield latched

/-- An intent leaves the queue as it was, or withdraws the FI of a contending district and may post a TR behind it. -/
theorem State.queue_districtHearsIntent (own : Option District) (k : District) (s : State) :
    (State.districtHearsIntent own k s).queue = s.queue ∨
      (s.record k).state = .contend ∧
        ((State.districtHearsIntent own k s).queue = (s.withdraw .fi k).queue ∨
          ∃ p : Post, p.kind = .tr ∧ (State.districtHearsIntent own k s).queue = (s.withdraw .fi k).queueWith p) := by
  rcases State.hears_cases own k s with same | ⟨contend, same⟩ | ⟨contend, same⟩ <;> rw [same]
  · left
    unfold State.pardonOnIntent
    split <;> rfl
  · rw [State.queue_enterSwitching, State.depart_of_contend contend]
    exact Or.inr ⟨contend, Or.inl rfl⟩
  · have state : ((s.yielding k).record k).state = .contend := by
      rw [State.record_yielding]
      exact contend
    exact Or.inr ⟨contend, State.queue_exitByOrigin state .yield⟩

/-- Behind the step of a district an entry stood there, or is withdrawn, or is a TR. -/
theorem State.mem_districtHearsIntent {x : Entry} (h : x ∈ (State.districtHearsIntent own k s).queue) :
    x ∈ s.queue ∨ x.phase = .onLine .withdrawn ∨ x.frame.kind = .tr := by
  rcases State.queue_districtHearsIntent own k s with same | ⟨_, same | ⟨p, tr, same⟩⟩ <;> rw [same] at h
  · exact Or.inl h
  · exact (State.mem_withdraw h).imp_right Or.inl
  · rcases State.mem_queueWith h with there | posted
    · exact (State.mem_withdraw there).imp_right Or.inl
    · exact Or.inr (Or.inr (by rw [posted, tr]))

/-- A contending district that yields has its FI withdrawn (R74, R137). -/
theorem State.withdrawn_yields (other : own ≠ some k) (contend : (s.record k).state = .contend)
    (fresh : (s.record k).yielded = false) {x : Entry} (h : x ∈ (State.districtHearsIntent own k s).queue)
    (hk : x.frame.kind = .fi) (hd : x.frame.loc.district = k) : x.phase = .onLine .withdrawn := by
  have state : ((s.yielding k).record k).state = .contend := by
    rw [State.record_yielding]
    exact contend
  rw [State.hears_contends other contend, fresh, if_neg Bool.false_ne_true] at h
  rcases State.queue_exitByOrigin state .yield with same | ⟨p, tr, same⟩ <;> rw [same] at h
  · exact State.withdraw_gone h hk hd
  · rcases State.mem_queueWith h with there | posted
    · exact State.withdraw_gone there hk hd
    · rw [posted, tr] at hk
      cases hk

/-! ### The four districts -/

theorem State.sameOutside_intentOfGroup (own : Option District) (s : State) :
    State.sameOutsideDistricts s (s.intentOfGroup own) :=
  State.sameOutside_eachDistrict (State.onlyDistrict_districtHearsIntent own) s.heardIntent

theorem State.intentAge_intentOfGroup (own : Option District) (s : State) : (s.intentOfGroup own).ramp.intentAge = 0 :=
  State.eachDistrict_keeps (P := fun u => u.ramp.intentAge = 0) (State.onlyDistrict_districtHearsIntent own)
    (fun j u heard => (State.ownCut_districtHearsIntent own j u).intentAge.trans heard) (s := s.heardIntent) rfl

theorem State.alert_intentOfGroup (own : Option District) (latched : s.alert = true) :
    (s.intentOfGroup own).alert = true :=
  State.eachDistrict_keeps (P := fun u => u.alert = true) (State.onlyDistrict_districtHearsIntent own)
    (fun j u => State.alert_districtHearsIntent own j u) (s := s.heardIntent) latched

/-- Each district hears the intent in its own record and relay (R126). -/
theorem State.record_intentOfGroup (own : Option District) (k : District) (s : State) :
    ∃ u : State, u.record k = s.record k ∧ u.relay k = s.relay k ∧
      (s.intentOfGroup own).record k = (State.districtHearsIntent own k u).record k ∧
      (s.intentOfGroup own).engine k = (State.districtHearsIntent own k u).engine k ∧
      (s.intentOfGroup own).relay k = (State.districtHearsIntent own k u).relay k := by
  obtain ⟨u, record, _, relay, _, after⟩ :=
    State.record_eachDistrict (State.onlyDistrict_districtHearsIntent own) s.heardIntent k
  exact ⟨u, record, relay, after⟩

/-- The FI of a district that yields stays withdrawn to the end of the step (R74, R137). -/
theorem State.withdrawn_intentOfGroup (other : own ≠ some k) (contend : (s.record k).state = .contend)
    (fresh : (s.record k).yielded = false) :
    ∀ x ∈ (s.intentOfGroup own).queue, x.frame.kind = .fi → x.frame.loc.district = k →
      x.phase = .onLine .withdrawn := by
  refine State.eachDistrict_reaches (P := fun u => ∀ x ∈ u.queue, x.frame.kind = .fi → x.frame.loc.district = k →
    x.phase = .onLine .withdrawn) k (State.onlyDistrict_districtHearsIntent own) ?_ s.heardIntent ?_
  · intro j u kept x hx hk hd
    rcases State.mem_districtHearsIntent hx with there | gone | tr
    · exact kept x there hk hd
    · exact gone
    · exact nomatch hk.symm.trans tr
  · intro u record _ x hx
    exact State.withdrawn_yields other (by rw [record]; exact contend) (by rw [record]; exact fresh) hx

theorem State.record_intentOfGroup_outside_contend (own : Option District)
    (notContend : (s.record k).state ≠ .contend) :
    (s.intentOfGroup own).record k = if (s.record k).pardonable then (s.record k).pardon else s.record k := by
  obtain ⟨u, record, _, after, _⟩ := State.record_intentOfGroup own k s
  rw [after, State.hears_outside_contend own (by rwa [record]), State.record_pardonOnIntent, record]

/-- A contending district that has yielded before goes on (R75). -/
theorem State.record_intentOfGroup_yielded (other : own ≠ some k) (contend : (s.record k).state = .contend)
    (yielded : (s.record k).yielded = true) : (s.intentOfGroup own).record k = s.record k := by
  obtain ⟨u, record, _, after, _⟩ := State.record_intentOfGroup own k s
  rw [after, State.hears_contends other (by rwa [record]), if_pos (by rwa [record]), record]

/-- A contending district that yields leaves by its origin, with yielded set (R74). -/
theorem State.record_intentOfGroup_yields (other : own ≠ some k) (contend : (s.record k).state = .contend)
    (fresh : (s.record k).yielded = false) :
    (s.intentOfGroup own).engine k = Engine.cleared ∧
      (s.intentOfGroup own).record k = (s.yielding k).recordAfterExit .yield k := by
  obtain ⟨u, record, relay, after, engine, _⟩ := State.record_intentOfGroup own k s
  rw [State.hears_contends other (by rwa [record]), if_neg (by rw [record, fresh]; decide)] at after engine
  rw [after, engine, State.record_exitByOrigin]
  exact ⟨State.engine_exitByOrigin k .yield _, State.yielded_congr record relay⟩

/-! ### What the unit does behind the intent -/

/-- What the ramp list unit does behind the districts' steps of a command, as the districts and the queue see it (R155,
R161). -/
structure State.Follows (m t : State) : Prop where
  outside : State.sameOutsideDistricts m t
  record : ∀ j : District, t.record j = m.record j ∨
    m.mode = .quiet ∧ (m.record j).state = .queued ∧ t.record j = (m.record j).toRamping
  engine : ∀ j : District, (m.record j).state ≠ .queued → t.engine j = m.engine j
  relay : ∀ j : District, t.relay j = m.relay j
  queue : ∀ x ∈ t.queue, x ∈ m.queue ∨ x.phase = .onLine .withdrawn ∨ x.frame.kind = .rb
  intentAge : t.ramp.intentAge = m.ramp.intentAge
  alert : t.alert = m.alert

theorem State.intentAge_directStart (s : State) : s.directStart.ramp.intentAge = s.ramp.intentAge := by
  unfold State.directStart
  split
  · split
    · rename_i longest
      rw [(State.startRamp_of_queued (longestQueued_queued longest)).2]
    · rfl
  · rfl

theorem State.intentAge_followUp (before s : State) :
    (State.followUp before s).ramp.intentAge = s.ramp.intentAge := by
  rcases State.followUp_cases before s with same | same <;> rw [same, State.intentAge_directStart]
  rw [State.chooseAgain_frame]

theorem State.follows_followUp (before s : State) : s.Follows (State.followUp before s) where
  outside := State.sameOutside_followUp before s
  record := State.record_followUp before s
  engine _ notQueued := (State.followUp_spares before notQueued).2.1
  relay := State.relay_followUp before s
  queue _ h := (State.mem_followUp h).imp_right fun later => later.imp_right fun rb => rb.1
  intentAge := State.intentAge_followUp before s
  alert := State.alert_followUp before s

theorem State.Follows.spares (follows : m.Follows t) (notQueued : (m.record k).state ≠ .queued) :
    t.record k = m.record k := (follows.record k).resolve_right fun starts => notQueued starts.2.1

/-! ### The yield and the pardon -/

theorem DistrictRecord.pardonable_iff {d : DistrictRecord} (cooling : d.state = .cooling) :
    d.pardonable = true ↔ d.reversing = false ∧ d.pardoned = false ∧ d.pardonWindow = true := by
  simp [DistrictRecord.pardonable, cooling, and_assoc]

/-- Behind an intent of the group a contending district has yielded or goes on (R74, R75, R82, R83). -/
theorem State.yieldsToIntent_of_follows (unmoved : s.Unmoved b) (relays : b.relays = s.relays) (other : own ≠ some k)
    (follows : (b.intentOfGroup own).Follows t) : s.yieldsToIntent t k := by
  have record : b.record k = s.record k := congrArg (fun q => PerDistrict.get q k) unmoved.districts
  have relay : b.relay k = s.relay k := congrArg (fun q => PerDistrict.get q k) relays
  have mode : (b.intentOfGroup own).mode = s.mode :=
    (State.mode_of_sameOutside (State.sameOutside_intentOfGroup own b)).trans unmoved.mode
  refine ⟨fun contend yielded => ?_, fun contend fresh => ?_⟩
  · have goesOn := State.record_intentOfGroup_yielded (s := b) other (by rwa [record]) (by rwa [record])
    rw [record] at goesOn
    rw [follows.spares (by rw [goesOn, contend]; decide), goesOn]
  · have contend' : (b.record k).state = .contend := by rwa [record]
    have fresh' : (b.record k).yielded = false := by rwa [record]
    obtain ⟨engine, yields⟩ := State.record_intentOfGroup_yields other contend' fresh'
    rw [State.yielded_congr record relay] at yields
    obtain ⟨live, ramp, probe⟩ := State.recordAfterExit_yielding k s
    have gone : ∀ x ∈ t.queue, x.frame.kind = .fi → x.frame.loc.district = k → x.phase = .onLine .withdrawn := by
      intro x hx hk hd
      rcases follows.queue x hx with there | gone | rb
      · exact State.withdrawn_intentOfGroup other contend' fresh' x there hk hd
      · exact gone
      · exact nomatch hk.symm.trans rb
    have after := follows.record k
    have spares := follows.spares (k := k)
    have engineAfter := follows.engine k
    rw [yields] at after spares engineAfter
    rw [mode] at after
    rw [engine] at engineAfter
    rw [State.gate_eq]
    cases origin : (s.record k).origin with
    | live =>
      rw [live origin] at spares engineAfter
      rw [spares nofun, engineAfter nofun]
      exact ⟨rfl, gone, fun _ => ⟨rfl, rfl, rfl, rfl, rfl, rfl, rfl⟩, nofun, nofun⟩
    | ramp =>
      rw [ramp origin] at after
      rcases after with same | ⟨quiet, _, starts⟩
      · rw [same]
        exact ⟨rfl, gone, nofun, fun _ => ⟨rfl, rfl, Or.inl rfl⟩, nofun⟩
      · rw [starts]
        exact ⟨rfl, gone, nofun, fun _ => ⟨rfl, rfl, Or.inr ⟨quiet, rfl⟩⟩, nofun⟩
    | probe =>
      rw [probe origin] at spares
      cases found : s.relayDisagrees k with
      | false =>
        rw [found] at spares
        rw [spares nofun]
        exact ⟨rfl, gone, nofun, nofun, fun _ _ => ⟨rfl, rfl, rfl, rfl⟩⟩
      | true =>
        rw [found] at spares
        rw [spares nofun]
        exact ⟨rfl, gone, nofun, nofun, fun _ => nofun⟩

/-- Outside CONTEND and QUEUED a district has at most a pardon of an intent of the group (R87). -/
theorem State.record_of_follows (unmoved : s.Unmoved b) (follows : (b.intentOfGroup own).Follows t)
    (notContend : (s.record k).state ≠ .contend) (notQueued : (s.record k).state ≠ .queued) :
    t.record k = if (s.record k).pardonable then (s.record k).pardon else s.record k := by
  have record : b.record k = s.record k := congrArg (fun q => PerDistrict.get q k) unmoved.districts
  have after := State.record_intentOfGroup_outside_contend (s := b) (k := k) own (by rwa [record])
  rw [record] at after
  have state : ((b.intentOfGroup own).record k).state = (s.record k).state := by
    rw [after]
    split <;> rfl
  rw [follows.spares (by rwa [state]), after]

theorem State.pardonedByIntent_of_follows (unmoved : s.Unmoved b) (follows : (b.intentOfGroup own).Follows t)
    (k : District) : s.pardonedByIntent t k := by
  intro cooling
  rw [State.record_of_follows unmoved follows (fun contend => nomatch cooling.symm.trans contend)
    fun queued => nomatch cooling.symm.trans queued]
  exact if_congr (DistrictRecord.pardonable_iff cooling) rfl rfl

/-! ### The FI of another station -/

/-- An FI of the group is accepted in LISTEN, RUN and QUIET, and is an intent of the group (R117, R124, R126). -/
theorem exec_fiFrame {body : FrameBody} {c : StationConfig} (mode : s.mode = .listen ∨ s.mode = .run ∨ s.mode = .quiet)
    (config : s.config = some c) (peer : body.sender ≠ c.id) (group : body.loc.group = c.group) :
    ∃ (l : LineInterface) (h : Handler), exec (.fiFrame body) s =
      .next (State.followUp s (({ s with line := l, handler := h } : State).intentOfGroup none)) := by
  have assembles : s.assembles = true := by
    rcases mode with h | h | h <;> simp [State.assembles, h]
  have accepted : s.judge (Frame.ofBody .fi body) = .accepted := by
    rw [State.judge_configured (f := Frame.ofBody .fi body) config peer mode]
    exact if_pos (beq_iff_eq.mpr group)
  obtain ⟨l, h, done⟩ := State.frameComplete_eq body.data s
  refine ⟨l, h, congrArg Host.Outcome.next ?_⟩
  rw [State.peerFrame_accepted assembles accepted]
  exact congrArg (fun v => State.followUp s (State.intentOfGroup none v)) done

end Sys2Proof.Machine

open Sys2Proof Sys2Proof.Machine

/-- Settles O42: the intent is heard, each district takes it by its own state, and the unit follows. -/
theorem peerIntentYieldsAndPardons : Obligations.PeerIntentYieldsAndPardons := by
  intro s body c mode config peer group _
  obtain ⟨l, h, next⟩ := exec_fiFrame mode config peer group
  have unmoved := State.unmoved_withLine s l h
  have relays : ({ s with line := l, handler := h } : State).relays = s.relays := rfl
  have alert : ({ s with line := l, handler := h } : State).alert = s.alert := rfl
  generalize ({ s with line := l, handler := h } : State) = b at *
  have follows := State.follows_followUp s (b.intentOfGroup none)
  have outside := State.sameOutsideDistricts_trans (State.sameOutside_intentOfGroup none b) follows.outside
  refine ⟨⟨_, next, ?_, (State.halt_of_sameOutside outside).trans unmoved.halt,
    (State.mode_of_sameOutside outside).trans unmoved.mode, fun latched => ?_⟩, fun k => ⟨_, next, ?_, ?_, ?_⟩⟩
  · exact follows.intentAge.trans (State.intentAge_intentOfGroup none b)
  · exact follows.alert.trans (State.alert_intentOfGroup none (alert.trans latched))
  · exact State.yieldsToIntent_of_follows unmoved relays (Option.some_ne_none k).symm follows
  · exact State.pardonedByIntent_of_follows unmoved follows k
  · intro notContend notCooling notQueued
    have barred : (s.record k).pardonable = false := by
      unfold DistrictRecord.pardonable
      rw [beq_false_of_ne notCooling]
      rfl
    rw [State.record_of_follows unmoved follows notContend notQueued, barred]
    rfl

end

section
/-! PROOFS. The completion of the station's own FI (R73, R107, R125, R136, R153): the settled queue, the flip won, and
the intent as the other districts take it. -/

namespace Sys2Proof.Machine

variable {k : District} {s b m t : State} {own : Option District}

/-! ### The queue of a completed attempt -/

/-- What a completed attempt leaves waited before it, or was marked changed (R136). -/
theorem State.mem_settleAttempt_completed {x : Entry} (h : x ∈ (s.settleAttempt true).queue) :
    ∃ y ∈ s.queue, y.frame = x.frame ∧ (y.phase = .waiting ∨ y.phase = .onLine .changed) := by
  obtain ⟨y, there, left⟩ := List.mem_filterMap.mp h
  refine ⟨y, there, ?_⟩
  unfold Entry.settled at left
  cases phase : y.phase with
  | waiting =>
    rw [phase] at left
    cases left
    exact ⟨rfl, Or.inl rfl⟩
  | onLine mark =>
    rw [phase] at left
    cases mark with
    | none => cases left
    | withdrawn => cases left
    | changed =>
      cases left
      exact ⟨rfl, Or.inr rfl⟩

/-- An entry marked changed waits again behind its attempt (R133, R136). -/
theorem State.settleAttempt_changed {e : Entry} (completed : Bool) (h : e ∈ s.queue)
    (changed : e.phase = .onLine .changed) :
    { e with phase := .waiting } ∈ (s.settleAttempt completed).queue := by
  refine List.mem_filterMap.mpr ⟨e, h, ?_⟩
  unfold Entry.settled
  rw [changed]

/-- Two entries of a queue in order that have one kind and one WHERE are one entry (R132). -/
theorem State.eq_of_queueOk (ok : s.QueueOk) {e x : Entry} (he : e ∈ s.queue) (hx : x ∈ s.queue)
    (kind : e.frame.kind = x.frame.kind) (loc : e.frame.loc = x.frame.loc) : e = x := by
  obtain ⟨_, _, distinct, _⟩ := ok
  have symmetric : Std.Symm fun a b : Entry => ¬ (a.frame.kind = b.frame.kind ∧ a.frame.loc = b.frame.loc) :=
    ⟨fun _ _ apart same => apart ⟨same.1.symm, same.2.symm⟩⟩
  by_contra other
  exact distinct.forall he hx other ⟨kind, loc⟩

/-- The frame whose attempt completed is not in the queue any more, unless it was marked changed (R107, R136). -/
theorem State.settleAttempt_removes (ok : s.QueueOk) {e x : Entry} (he : e ∈ s.queue)
    (sent : e.phase = .onLine .none ∨ e.phase = .onLine .withdrawn) (hx : x ∈ (s.settleAttempt true).queue) :
    ¬ (x.frame.kind = e.frame.kind ∧ x.frame.loc = e.frame.loc) := by
  rintro ⟨kind, loc⟩
  obtain ⟨y, hy, frame, left⟩ := State.mem_settleAttempt_completed hx
  have same := State.eq_of_queueOk ok he hy (by rw [frame, kind]) (by rw [frame, loc])
  rw [same] at sent
  rcases sent with sent | sent <;> rcases left with left | left <;> exact nomatch sent.symm.trans left

/-! ### An intent and a queue that waits -/

theorem State.waiting_withdraw (kind : Kind) (k : District) (waiting : ∀ x ∈ s.queue, x.phase = .waiting) :
    ∀ x ∈ (s.withdraw kind k).queue, x.phase = .waiting := by
  intro x hx
  obtain ⟨y, hy, left⟩ := List.mem_filterMap.mp hx
  unfold Entry.withdrawnFor at left
  rw [waiting y hy] at left
  split at left
  · cases left
  · cases left
    exact waiting _ hy

theorem State.waiting_queueWith (p : Post) (waiting : ∀ x ∈ s.queue, x.phase = .waiting) :
    ∀ x ∈ s.queueWith p, x.phase = .waiting := by
  unfold State.queueWith
  split
  · exact waiting_postInto p waiting
  · exact waiting

theorem State.waiting_intentOfGroup (own : Option District) (waiting : ∀ x ∈ s.queue, x.phase = .waiting) :
    ∀ x ∈ (s.intentOfGroup own).queue, x.phase = .waiting := by
  refine State.eachDistrict_keeps (P := fun u => ∀ x ∈ u.queue, x.phase = .waiting)
    (State.onlyDistrict_districtHearsIntent own) (fun j u waiting => ?_) (s := s.heardIntent) waiting
  rcases State.queue_districtHearsIntent own j u with same | ⟨_, same | ⟨p, _, same⟩⟩ <;> rw [same]
  · exact waiting
  · exact State.waiting_withdraw .fi j waiting
  · exact State.waiting_queueWith p (State.waiting_withdraw .fi j waiting)

/-- An intent of the group posts no FI. -/
theorem State.mem_intentOfGroup (own : Option District) (waiting : ∀ x ∈ s.queue, x.phase = .waiting) {x : Entry}
    (h : x ∈ (s.intentOfGroup own).queue) (fi : x.frame.kind = .fi) : x ∈ s.queue := by
  have kept : ∀ y ∈ (s.intentOfGroup own).queue, y.frame.kind = .fi →
      y ∈ s.queue ∨ y.phase = .onLine .withdrawn := by
    refine State.eachDistrict_keeps (P := fun u => ∀ y ∈ u.queue, y.frame.kind = .fi →
      y ∈ s.queue ∨ y.phase = .onLine .withdrawn) (State.onlyDistrict_districtHearsIntent own) ?_ (s := s.heardIntent)
      fun y there _ => Or.inl there
    intro j u before y hy fi
    rcases State.mem_districtHearsIntent hy with there | gone | tr
    · exact before y there fi
    · exact Or.inr gone
    · exact nomatch fi.symm.trans tr
  exact (kept x h fi).resolve_right fun gone =>
    nomatch (State.waiting_intentOfGroup own waiting x h).symm.trans gone

/-- The FI of a district that is not in CONTEND stays through an intent of the group. -/
theorem State.intentOfGroup_keeps (own : Option District) {x : Entry} (there : x ∈ s.queue) (fi : x.frame.kind = .fi)
    (notContend : (s.record x.frame.loc.district).state ≠ .contend) : x ∈ (s.intentOfGroup own).queue := by
  refine State.eachDistrict_induction (P := fun _ u => x ∈ u.queue) (State.onlyDistrict_districtHearsIntent own)
    s.heardIntent there ?_
  intro j u record _ _ there
  have kept (contend : (u.record j).state = .contend) : x ∈ (u.withdraw .fi j).queue := by
    refine State.withdraw_keeps there fun ⟨_, district⟩ => notContend ?_
    rw [district]
    exact (congrArg DistrictRecord.state record).symm.trans contend
  rcases State.queue_districtHearsIntent own j u with same | ⟨contend, same | ⟨p, tr, same⟩⟩ <;> rw [same]
  · exact there
  · exact kept contend
  · exact State.mem_queueWith_of_code_lt (kept contend) (by rw [fi, tr]; decide)

/-- The district that an own FI names wins its flip (R73, R78). -/
theorem State.intentOfGroup_wins (contend : (s.record k).state = .contend) :
    (s.intentOfGroup (some k)).record k = (s.record k).toSwitching ∧
      (s.intentOfGroup (some k)).relay k = (s.relay k).switch := by
  obtain ⟨u, record, relay, after, _, relayAfter⟩ := State.record_intentOfGroup (some k) k s
  have wins : State.districtHearsIntent (some k) k u = u.enterSwitching k := State.hears_wins (by rwa [record])
  rw [after, relayAfter, wins, State.record_enterSwitching, State.relay_enterSwitching, record, relay]
  exact ⟨rfl, rfl⟩

/-! ### The completion -/

theorem State.follows_refl (m : State) : m.Follows m :=
  ⟨rfl, fun _ => Or.inl rfl, fun _ _ => rfl, fun _ => rfl, fun _ => Or.inl, rfl, rfl⟩

theorem State.follows_chooseAgain (m : State) : m.Follows m.chooseAgain where
  outside := State.sameOutside_chooseAgain m
  record j := Or.inl (State.record_chooseAgain m j)
  engine j _ := by
    rw [State.chooseAgain_frame]
    rfl
  relay j := by
    rw [State.chooseAgain_frame]
    rfl
  queue _ h := (State.mem_chooseAgain h).imp_right fun rb => Or.inr rb.1
  intentAge := by rw [State.chooseAgain_frame]
  alert := by rw [State.chooseAgain_frame]

theorem State.queue_completed (data : Byte) (s : State) : (s.completed data).queue = (s.settleAttempt true).queue := by
  have handed := State.onlyLine_frameComplete data ((s.settleAttempt true).modLine (fun l => { l with tx := none }))
  unfold State.onlyLine at handed
  unfold State.completed
  rw [handed]
  rfl

/-- The frame in flight at its end completes, for the command that is about its kind (R107). -/
theorem State.completeInFlight_sent {f : Frame} {about : Kind → Bool} (run : s.mode = .run)
    (kind : about f.post.kind = true) (sent : s.line.tx = some { frame := f, char := 3, t := 192 }) :
    s.completeInFlight about = s.ownCompletion f := by
  unfold State.completeInFlight
  rw [sent]
  exact if_pos ⟨run, kind⟩

/-- An own frame at its end: the settled attempt, the copy dispatched, and the unit (R107, R125, R138, R155, R157). -/
theorem State.ownCompletion_sent {f : Frame} (sent : s.line.tx = some { frame := f, char := 3, t := 192 }) :
    s.ownCompletion f =
      let done := (s.completed f.post.data).dispatchOwn f
      if f.post.kind = .rb ∨ s.ramp.rbDistrict = none then done.chooseAgain.directStart else State.followUp s done := by
  have all : s.sentAll = true := by
    unfold State.sentAll
    rw [sent]
    rfl
  unfold State.ownCompletion
  dsimp only
  rw [if_pos all]
  rfl

/-- OWN_FI_COMPLETION in RUN, at the end of the frame: the attempt is settled, the copy is an intent of the group, and
at most a choice follows (R107, R125, R155, R157). -/
theorem exec_ownFiCompletion {f : Frame} (run : s.mode = .run) (fi : f.post.kind = .fi)
    (sent : s.line.tx = some { frame := f, char := 3, t := 192 }) :
    ∃ t, exec .ownFiCompletion s = .next t ∧
      (t = (s.completed f.post.data).intentOfGroup (some f.post.loc.district) ∨
        t = ((s.completed f.post.data).intentOfGroup (some f.post.loc.district)).chooseAgain) := by
  have completes := (State.completeInFlight_sent (about := fun kind => kind == .fi) run (beq_iff_eq.mpr fi) sent).trans
    (State.ownCompletion_sent sent)
  have dispatched : (s.completed f.post.data).dispatchOwn f =
      (s.completed f.post.data).intentOfGroup (some f.post.loc.district) := by
    unfold State.dispatchOwn
    rw [fi]
  have mode : ((s.completed f.post.data).intentOfGroup (some f.post.loc.district)).mode = .run :=
    (State.mode_of_sameOutside (State.sameOutside_intentOfGroup _ _)).trans
      ((State.completed_completed f.post.data s).unmoved.mode.trans run)
  refine ⟨_, congrArg Host.Outcome.next completes, ?_⟩
  dsimp only
  rw [dispatched]
  split
  · right
    refine State.directStart_outside_quiet ?_
    rw [State.mode_of_sameOutside (State.sameOutside_chooseAgain _), mode]
    decide
  · exact State.followUp_in_run s mode

end Sys2Proof.Machine

open Sys2Proof Sys2Proof.Machine

/-- Settles O51: the attempt is settled, the district named wins its flip, the others take the intent, and at most a
choice follows. -/
theorem ownIntentWinsFlip : Obligations.OwnIntentWinsFlip := by
  intro s f run fi sent ok
  obtain ⟨t, next, moves⟩ := exec_ownFiCompletion run fi sent
  have ended := State.completed_completed f.post.data s
  have settled := State.queue_completed f.post.data s
  generalize s.completed f.post.data = b at *
  have waits : ∀ x ∈ (b.intentOfGroup (some f.post.loc.district)).queue, x.phase = .waiting :=
    State.waiting_intentOfGroup _ ended.waiting
  have follows : (b.intentOfGroup (some f.post.loc.district)).Follows t := by
    rcases moves with same | same <;> rw [same]
    · exact State.follows_refl _
    · exact State.follows_chooseAgain _
  have waiting : ∀ x ∈ t.queue, x.phase = .waiting := by
    rcases moves with same | same <;> rw [same]
    · exact waits
    · exact State.waiting_chooseAgain waits
  have outside := State.sameOutsideDistricts_trans (State.sameOutside_intentOfGroup _ b) follows.outside
  refine ⟨t, next, (congrArg LineInterface.tx (State.line_of_sameOutside outside)).trans ended.idle, ?_,
    (State.mode_of_sameOutside outside).trans (ended.unmoved.mode.trans run),
    (State.halt_of_sameOutside outside).trans ended.unmoved.halt, waiting, fun e he isFi sent x hx => ?_,
    fun e he isFi changed notContend => ?_, fun contend => ?_, fun k other => ?_,
    State.pardonedByIntent_of_follows ended.unmoved follows⟩
  · exact follows.intentAge.trans (State.intentAge_intentOfGroup _ b)
  · rintro ⟨kind, loc⟩
    have there : x ∈ (b.intentOfGroup (some f.post.loc.district)).queue := by
      rcases follows.queue x hx with there | gone | rb
      · exact there
      · exact nomatch (waiting x hx).symm.trans gone
      · exact nomatch kind.symm.trans rb
    have before := State.mem_intentOfGroup _ ended.waiting there kind
    rw [settled] at before
    exact State.settleAttempt_removes ok he sent before ⟨kind.trans isFi.symm, loc⟩
  · have there : { e with phase := .waiting } ∈ b.queue := by
      rw [settled]
      exact State.settleAttempt_changed true he changed
    have kept := State.intentOfGroup_keeps (some f.post.loc.district) there isFi (by rwa [ended.record])
    rcases moves with same | same <;> rw [same]
    · exact kept
    · exact State.chooseAgain_keeps kept (by rw [isFi]; decide)
  · obtain ⟨record, relay⟩ := State.intentOfGroup_wins (s := b) (by rwa [ended.record])
    have relayBefore : b.relay f.post.loc.district = s.relay f.post.loc.district :=
      congrArg (fun q => PerDistrict.get q f.post.loc.district) ended.relays
    rw [follows.spares (by rw [record]; exact nofun), follows.relay, record, relay, relayBefore, Relay.switch_eq]
    exact ⟨rfl, rfl, rfl, rfl⟩
  · exact State.yieldsToIntent_of_follows ended.unmoved ended.relays
      (fun same => other (Option.some.inj same).symm) follows

end

section
/-! PROOFS. The pin and the receiver (R94 to R100, R108 to R110): what a command that shows a level moves, the falling edge
and its check, the break driver and the end of a break, the characters that the handler takes, and RESET (R180). -/

namespace Sys2Proof.Machine

variable {s : State}

/-! ### The level shown -/

/-- A command that shows a level moves the others' pull, the level last seen and the line's two timers alone. -/
theorem State.line_showLine (level : Level) (s : State) :
    ∃ (pulled : Bool) (was : Level) (idle idleSub dominant : Nat), (s.showLine level).line =
      { s.line with pulled := pulled, was := was, idle := idle, idleSub := idleSub, dominant := dominant } := by
  unfold State.showLine
  cases level with
  | low =>
    dsimp only
    split <;> exact ⟨_, _, _, _, _, rfl⟩
  | high =>
    dsimp only
    rcases State.freed_cases (s.modLine (fun l => { l with pulled := false })) with ⟨_, same⟩ | ⟨_, same⟩ <;>
      rw [same] <;> exact ⟨_, _, _, _, _, rfl⟩

@[simp] theorem State.rx_showLine (level : Level) (s : State) : (s.showLine level).line.rx = s.line.rx := by
  obtain ⟨_, _, _, _, _, same⟩ := State.line_showLine level s
  rw [same]

@[simp] theorem State.driver_showLine (level : Level) (s : State) : (s.showLine level).line.driver = s.line.driver := by
  obtain ⟨_, _, _, _, _, same⟩ := State.line_showLine level s
  rw [same]

@[simp] theorem State.breakInProgress_showLine (level : Level) (s : State) :
    (s.showLine level).line.breakInProgress = s.line.breakInProgress := by
  obtain ⟨_, _, _, _, _, same⟩ := State.line_showLine level s
  rw [same]

/-- The level on LINE is read of the line interface and the mode (R90). -/
theorem State.lineLevel_congr {t : State} (line : t.line = s.line) (mode : t.mode = s.mode) :
    t.lineLevel = s.lineLevel := by
  unfold State.lineLevel State.selfPulls State.txPulls State.txLevel State.driverPulls
  rw [line, mode]

/-- A line that the station itself pulls reads dominant (R90). -/
theorem State.lineLevel_of_selfPulls (pulls : s.selfPulls = true) : s.lineLevel = .low := by
  unfold State.lineLevel
  rw [pulls, Bool.or_true]
  rfl

/-- With the transmitter IDLE and the break driver off the station pulls nothing (R90). -/
theorem State.selfPulls_of_idle (idle : s.line.tx = none) (off : s.line.driver = .off) : s.selfPulls = false := by
  unfold State.selfPulls State.txPulls State.txLevel State.driverPulls
  rw [idle, off]
  cases s.mode <;> rfl

/-- Recessive shown where the station itself pulls: the others have let go, and the line stays dominant (R90). -/
theorem State.showHigh_of_selfPulls (pulls : s.selfPulls = true) :
    s.showLine .high = s.modLine (fun l => { l with pulled := false }) := by
  have low : (s.modLine (fun l => { l with pulled := false })).lineLevel = .low := State.lineLevel_of_selfPulls pulls
  exact if_neg (by rw [low]; decide)

/-- Recessive shown where the station does not pull: the line reads so, and the dominant timer is at 0 (R108). -/
theorem State.showHigh_of_free (free : s.selfPulls = false) :
    s.showLine .high = s.modLine (fun l => { l with pulled := false }.recessive) := by
  have high : (s.modLine (fun l => { l with pulled := false })).lineLevel = .high := by
    have released : (s.modLine (fun l => { l with pulled := false })).selfPulls = false := free
    unfold State.lineLevel
    rw [released]
    rfl
  exact if_pos high

theorem State.showLow_of_dominant (low : s.lineLevel = .low) :
    s.showLine .low = s.modLine LineInterface.notIdle := by
  unfold State.showLine
  dsimp only
  rw [if_pos low]

/-! ### The break driver and the end of a break -/

theorem State.driveMinimumEnd_asserted {ran : Nat} (driving : s.line.driver = .minimum ran)
    (asserted : s.stopAsserted = true) :
    s.driveMinimumEnd = s.modLine (fun l => { l with driver := .held }) := by
  unfold State.driveMinimumEnd
  rw [driving]
  exact if_pos asserted

theorem State.driveMinimumEnd_released {ran : Nat} (driving : s.line.driver = .minimum ran)
    (released : s.stopAsserted = false) : s.driveMinimumEnd = s.releaseDriver := by
  unfold State.driveMinimumEnd
  rw [driving]
  exact if_neg (by rw [released]; decide)

theorem State.breakInProgress_breakEnds (s : State) :
    s.breakEnds.line.breakInProgress = (s.line.breakInProgress && s.line.driver != .off) := by
  unfold State.breakEnds
  rw [State.line_modLine, State.breakInProgress_showLine, State.driver_showLine]

/-- At the end of a break the dominant timer is at 0, but on a line that the station itself still pulls (R108). -/
theorem State.dominant_breakEnds (s : State) :
    s.breakEnds.line.dominant = if s.selfPulls then s.line.dominant else 0 := by
  unfold State.breakEnds
  cases pulls : s.selfPulls with
  | true =>
    rw [State.showHigh_of_selfPulls pulls]
    rfl
  | false => rfl

/-! ### Falling edges -/

theorem State.idle_edgeShown (s : State) : s.edgeShown.line.idle = 0 := by
  unfold State.edgeShown
  split <;> rfl

@[simp] theorem State.rx_edgeShown (s : State) : s.edgeShown.line.rx = s.line.rx := by
  unfold State.edgeShown
  split <;> exact State.rx_showLine .low s

/-- A falling edge where the line was recessive, or where the station does not pull it: a dominant run begins (R108). -/
theorem State.edgeShown_begins (begins : s.selfPulls = false ∨ s.line.was = .high) :
    s.edgeShown = (s.showLine .low).modLine LineInterface.edgeBegins := by
  unfold State.edgeShown
  rw [if_neg]
  rcases begins with free | high
  · simp [free]
  · simp [high]

/-- A falling edge reported where the station itself has held the line dominant begins no run (R108; log entry 2). -/
theorem State.edgeShown_held (pulls : s.selfPulls = true) (low : s.line.was = .low) :
    s.edgeShown = s.modLine LineInterface.notIdle := by
  unfold State.edgeShown
  rw [if_pos (by simp [pulls, low]), State.showLow_of_dominant (State.lineLevel_of_selfPulls pulls)]
  rfl

theorem State.line_edgeTaken {idle : Nat} (pin : s.mode ≠ .selfTest) :
    (s.edgeTaken idle).line = { s.line with rx := s.line.rx.edge idle } := by
  unfold State.edgeTaken
  rw [if_neg pin]
  rfl

/-- Outside SELFTEST the receiver takes the edge of the pin, on the line as it is shown (R95, R97). -/
theorem State.line_fallingEdge {idle : Nat} (pin : s.mode ≠ .selfTest) :
    (s.fallingEdge idle).line = { s.edgeShown.line with rx := s.line.rx.edge idle } := by
  unfold State.fallingEdge
  rw [State.line_edgeTaken (s := s.edgeShown) pin, State.rx_edgeShown]

theorem Receiver.edge_ready {r : Receiver} (ready : r.phase = .ready) (unchecked : r.check = none) (idle : Nat) :
    r.edge idle = { r with check := some 8 } := by
  unfold Receiver.edge
  rw [ready, unchecked]
  rfl

theorem Receiver.edge_awaitIdle {r : Receiver} (waits : r.phase = .awaitIdle) (idle : Nat) :
    r.edge idle = if 10 ≤ idle then { r with phase := .ready, check := some 8 } else r := by
  unfold Receiver.edge
  rw [waits]
  rfl

theorem Receiver.edge_character {r : Receiver} (busy : r.phase = .character) (idle : Nat) : r.edge idle = r := by
  unfold Receiver.edge
  rw [busy]

/-! ### The check of an edge -/

@[simp] theorem State.rx_recheckShown (level : Level) (s : State) : (s.recheckShown level).line.rx = s.line.rx := by
  unfold State.recheckShown
  dsimp only
  split <;> exact State.rx_showLine level s

theorem State.idle_recheckShown (s : State) : (s.recheckShown .low).line.idle = 0 := by
  unfold State.recheckShown
  dsimp only
  split <;> exact (State.idle_showLow s).1

/-- A READY receiver takes its check on the line as it is shown (R95). -/
theorem State.line_startRecheck (pin : s.mode ≠ .selfTest) (ready : s.line.rx.phase = .ready)
    (checked : s.line.rx.check.isSome = true) (level : Level) :
    (s.startRecheck level).line = { (s.recheckShown level).line with rx := s.line.rx.recheck level } := by
  unfold State.startRecheck
  rw [if_neg pin, if_pos ⟨ready, checked⟩, State.modRx_eq, State.line_modLine, State.rx_recheckShown]

/-! ### Characters -/

/-- LISTEN, RUN, QUIET and STRAP_FAULT: the modes in which characters are assembled (R112, R118). -/
theorem State.characterArrives_assembled (straps : s.mode ≠ .straps) (selfTest : s.mode ≠ .selfTest) (raw : RawChar) :
    s.characterArrives raw =
      if raw.status = .clean then s.takeClean raw.data raw.mark else (s.characterHanded raw).discardAssembly := by
  unfold State.characterArrives
  cases mode : s.mode with
  | straps => exact absurd mode straps
  | selfTest => exact absurd mode selfTest
  | listen => rfl
  | run => rfl
  | quiet => rfl
  | strapFault => rfl

/-- The parity bit makes the count of 1s odd, so that the character is clean (R92, R96). -/
theorem RawChar.status_ofClean (data : Byte) (mark : Bool) : (RawChar.ofClean data mark).status = .clean := by
  have flip (l : List Nat) (b : Bool) : l.foldl (fun acc i => acc ^^ data.getLsbD i) (!b) =
      !l.foldl (fun acc i => acc ^^ data.getLsbD i) b := by
    induction l generalizing b with
    | nil => rfl
    | cons i rest ih => rw [List.foldl_cons, List.foldl_cons, Bool.not_xor, ih]
  have odd : parityOdd data mark (parityBit data mark) = true := by
    unfold parityBit
    cases even : parityOdd data mark false with
    | true => exact even
    | false =>
      have other : parityOdd data mark true = !parityOdd data mark false := by
        unfold parityOdd
        rw [← flip, Bool.xor_true, Bool.xor_false]
      rw [Bool.not_false, other, even]
      rfl
  exact if_pos odd

/-- A clean character where characters are assembled is taken by its mark (R98). -/
theorem State.characterArrives_clean (straps : s.mode ≠ .straps) (selfTest : s.mode ≠ .selfTest) (data : Byte)
    (mark : Bool) : s.characterArrives (RawChar.ofClean data mark) = s.takeClean data mark := by
  rw [State.characterArrives_assembled straps selfTest, if_pos (RawChar.status_ofClean data mark)]
  rfl

/-- A character handed over leaves all but the line, whatever the assembly then holds. -/
theorem State.onlyLine_handed (raw : RawChar) (h : Handler) (s : State) :
    State.onlyLine s { s.characterHanded raw with handler := h } := by
  have handed := State.sameOutsideLine_characterHanded raw s
  unfold State.sameOutsideLine at handed
  unfold State.onlyLine
  rw [handed]

theorem State.handler_characterHanded (raw : RawChar) (s : State) : (s.characterHanded raw).handler = s.handler := by
  have handed := State.sameOutsideLine_characterHanded raw s
  unfold State.sameOutsideLine at handed
  rw [handed]

/-- A mark-0 character that is ignored: handed over, with the assembly as it stood (R98). -/
theorem State.takeClean_ignored (ignored : s.handler.hunt = true ∨ s.handler.held = []) (data : Byte) :
    s.takeClean data false = { s.characterHanded (RawChar.ofClean data false) with handler := s.handler } := by
  have handed : s.takeClean data false = s.characterHanded (RawChar.ofClean data false) := by
    by_cases hunt : s.handler.hunt = true
    · exact State.takeClean_hunt hunt data
    · unfold State.takeClean
      dsimp only
      rw [if_neg Bool.false_ne_true, if_neg hunt, ignored.resolve_left hunt]
  rw [handed, ← State.handler_characterHanded (RawChar.ofClean data false) s]

/-- STATION and WHERE are taken behind what is held (R98, R114). -/
theorem State.takeClean_held (follows : s.handler.hunt = false)
    (position : s.handler.held.length = 1 ∨ s.handler.held.length = 2) (data : Byte) :
    s.takeClean data false =
      { s.characterHanded (RawChar.ofClean data false) with
        handler := { held := s.handler.held ++ [data], hunt := false } } := by
  unfold State.takeClean
  dsimp only
  rw [if_neg Bool.false_ne_true, if_neg (by rw [follows]; decide)]
  match held : s.handler.held, position with
  | [head], _ => rfl
  | [head, station], _ => rfl
  | [], .inl one => cases one
  | [], .inr two => cases two
  | _ :: _ :: _ :: _, .inl one => cases one
  | _ :: _ :: _ :: _, .inr two => cases two

/-- DATA completes the frame, which is a peer's where nothing is being sent (R98). -/
theorem State.takeClean_completes {head station loc : Byte} (follows : s.handler.hunt = false)
    (idle : s.line.tx = none) (held : s.handler.held = [head, station, loc]) (data : Byte) :
    s.takeClean data false = s.peerFrame (Frame.ofChars head station loc data) := by
  have notOwn : s.isOwnFrame (Frame.ofChars head station loc data) = false := by
    unfold State.isOwnFrame
    rw [idle]
  unfold State.takeClean
  dsimp only
  rw [if_neg Bool.false_ne_true, if_neg (by rw [follows]; decide), held]
  exact if_neg (by rw [notOwn]; decide)

end Sys2Proof.Machine

open Sys2Proof Sys2Proof.Machine

/-- Settles O5, value by value; each qualifier begins unsettled on the level that its pin has. -/
theorem resetCommand : Obligations.ResetCommand := by
  intro s
  have qualifier (pin : InputPin) : s.afterReset.qualifier pin = Qualifier.reset (s.qualifier pin).raw := by
    cases pin with
    | cnf k => exact PerDistrict.get_map _ s.cnfQ k
    | stop | resume | release => rfl
  refine ⟨s.afterReset, rfl, ?_, rfl, rfl, rfl, rfl, rfl, fun pin _ => by rw [qualifier]; rfl⟩
  refine ⟨rfl, rfl, rfl, rfl, rfl, rfl, rfl, rfl, rfl, fun pin _ => by rw [qualifier]; exact ⟨rfl, rfl⟩,
    PerDistrict.get_all Engine.reset, fun k => ?_, PerDistrict.get_all Relay.reset, fun k => ?_, rfl, rfl, rfl, rfl, rfl,
    rfl, rfl, rfl, rfl, rfl, rfl, rfl, rfl, rfl, rfl, rfl⟩
  all_goals have record : s.afterReset.record k = DistrictRecord.reset := PerDistrict.get_all _ k
  · rw [record]
    decide
  · unfold State.gate State.lamp
    rw [record]
    exact ⟨rfl, rfl⟩

/-- Settles O25: STOP/ decides what the driver does at the end of tBDRIVE, and at the end of a break the line goes by
what the station itself pulls. -/
theorem breakDriverAndBreakEnd : Obligations.BreakDriverAndBreakEnd := by
  intro s
  refine ⟨fun ran driving => ⟨s.driveMinimumEnd, rfl, ?_⟩, s.breakEnds, rfl, fun off => ?_, fun drives => ?_,
    State.dominant_breakEnds s, State.sameOutsideLine_breakEnds s⟩
  · cases asserted : s.stopAsserted with
    | true =>
      rw [State.driveMinimumEnd_asserted driving asserted]
      exact ⟨fun _ => rfl, nofun, rfl, rfl⟩
    | false =>
      obtain ⟨driver, idle, inProgress⟩ := State.releaseDriver_line s
      rw [State.driveMinimumEnd_released driving asserted]
      exact ⟨nofun, fun _ => ⟨driver, idle⟩, inProgress, State.sameOutsideLine_releaseDriver s⟩
  · rw [State.breakInProgress_breakEnds, off]
    exact Bool.and_false _
  · rw [State.breakInProgress_breakEnds, bne_iff_ne.mpr drives, Bool.and_true]

/-- Settles O33: a character that is not clean is handed over, and the assembly is discarded. -/
theorem characterErrorHunts : Obligations.CharacterErrorHunts := by
  intro s raw wf straps selfTest
  have inError : raw.status ≠ .clean := bne_iff_ne.mp wf
  have arrives : s.characterArrives raw = (s.characterHanded raw).discardAssembly := by
    rw [State.characterArrives_assembled straps selfTest, if_neg inError]
  exact ⟨_, congrArg Host.Outcome.next arrives, rfl, State.onlyLine_handed raw _ s⟩

/-- Settles O34: by the mark, the hunt flag and the position; the four characters of an HD are that HD. -/
theorem cleanCharacterTaken : Obligations.CleanCharacterTaken := by
  intro s data b straps selfTest
  have taken (data : Byte) (mark : Bool) {t : State} (takes : s.takeClean data mark = t) :
      Host.Outcome.next (s.characterArrives (RawChar.ofClean data mark)) =
        (.next t : Host.Outcome State Fault Refusal) :=
    congrArg Host.Outcome.next ((State.characterArrives_clean straps selfTest data mark).trans takes)
  refine ⟨⟨_, taken data true (State.takeClean_mark data s), rfl, State.onlyLine_handed _ _ s⟩,
    ⟨_, taken data true (State.takeClean_mark data s), rfl, State.onlyLine_handed _ _ s⟩,
    fun ignored => ⟨_, taken data false (State.takeClean_ignored ignored data), rfl, State.onlyLine_handed _ _ s⟩,
    fun follows position =>
      ⟨_, taken data false (State.takeClean_held follows position data), rfl, State.onlyLine_handed _ _ s⟩,
    fun follows idle held => ?_⟩
  have hd : Frame.ofChars (BitVec.ofNat 8 (16 * 5 + b.prio.val)) (BitVec.ofNat 8 b.sender.val) b.loc.byte b.data =
      Frame.ofBody .hd b := Frame.ofChars_chars (Frame.ofBody .hd b) rfl
  have completes := State.takeClean_completes follows idle held b.data
  exact taken b.data false (completes.trans (congrArg s.peerFrame hd))

/-- Settles O41: the edge by what the station pulls and the receiver's phase, and the check by the level shown. -/
theorem edgeAndRecheck : Obligations.EdgeAndRecheck := by
  intro s idle level pin
  refine ⟨⟨s.fallingEdge idle.val, rfl, ?_⟩, fun ready checked => ⟨s.startRecheck level, rfl, ?_⟩⟩
  · have frame := State.sameOutsideLine_fallingEdge idle.val s
    have line := State.line_fallingEdge (idle := idle.val) pin
    generalize s.fallingEdge idle.val = t at frame line
    have rx : t.line.rx = s.line.rx.edge idle.val := congrArg LineInterface.rx line
    refine ⟨?_, fun begins => ?_, fun pulls low => ?_, fun ready unchecked => ?_, fun waits joins => ?_,
      fun waits below => ?_, fun busy => rx.trans (Receiver.edge_character busy _), frame⟩
    · rw [line]
      exact State.idle_edgeShown s
    · rw [line, State.edgeShown_begins begins]
      rfl
    · rw [line, State.edgeShown_held pulls low]
      rfl
    · exact rx.trans (Receiver.edge_ready ready unchecked _)
    · exact rx.trans ((Receiver.edge_awaitIdle waits _).trans (if_pos joins))
    · exact rx.trans ((Receiver.edge_awaitIdle waits _).trans (if_neg (Nat.not_le.mpr below)))
  · have frame := State.sameOutsideLine_startRecheck level s
    have line := State.line_startRecheck pin ready checked level
    generalize s.startRecheck level = t at frame line
    refine ⟨?_, ?_, ?_, frame⟩
    · rintro rfl
      rw [line]
      exact ⟨rfl, rfl, State.idle_recheckShown s⟩
    · rintro rfl
      rw [line]
      exact ⟨ready, rfl⟩
    · rw [line]
      cases level <;> rfl

end

section
/-! PROOFS. The offer (R103, R130, R135): what a contention attempt sends and what it leaves in the queue, and the three
occasions of one: the idle gap, an idle boundary and a join. -/

namespace Sys2Proof.Machine

variable {s u : State}

/-! ### The queue at an offer -/

/-- Step 1 of an offer sets the nibble of an RB, wherever it stands (R135, R156). -/
theorem State.refreshedQueue_eq (s : State) : s.refreshedQueue = s.queue.map s.refreshedEntry := rfl

theorem State.refreshedEntry_of_ne_rb {e : Entry} (notRb : e.frame.kind ≠ .rb) : s.refreshedEntry e = e := if_neg notRb

@[simp] theorem State.kind_refreshedEntry (s : State) (e : Entry) : (s.refreshedEntry e).frame.kind = e.frame.kind := by
  unfold State.refreshedEntry
  split <;> rfl

@[simp] theorem State.loc_refreshedEntry (s : State) (e : Entry) : (s.refreshedEntry e).frame.loc = e.frame.loc := by
  unfold State.refreshedEntry
  split <;> rfl

theorem map_refreshedEntry_of_noRb {q : List Entry} (noRb : ∀ x ∈ q, x.frame.kind ≠ .rb) :
    q.map s.refreshedEntry = q :=
  (List.map_congr_left fun x hx => State.refreshedEntry_of_ne_rb (noRb x hx)).trans (List.map_id q)

/-- Behind the RB of a queue in order stands no other (R132). -/
theorem State.noRb_behind (ok : s.QueueOk) {e : Entry} {rest : List Entry} (queue : s.queue = e :: rest)
    (rb : e.frame.kind = .rb) : ∀ x ∈ rest, x.frame.kind ≠ .rb := by
  obtain ⟨_, _, _, oneRb, _⟩ := ok
  intro x hx isRb
  rw [queue, List.filter_cons_of_pos (by rw [rb]; rfl)] at oneRb
  have found : x ∈ rest.filter (fun e => e.frame.kind == .rb) := List.mem_filter.mpr ⟨hx, by rw [isRb]; rfl⟩
  have := List.length_pos_of_mem found
  simp only [List.length_cons] at oneRb
  omega

/-- No entry behind one of a queue in order has its kind and WHERE (R132). -/
theorem State.distinct_behind (ok : s.QueueOk) {e : Entry} {before rest : List Entry}
    (queue : s.queue = before ++ e :: rest) :
    ∀ x ∈ rest, ¬ (x.frame.kind = e.frame.kind ∧ x.frame.loc = e.frame.loc) := by
  obtain ⟨_, _, distinct, _⟩ := ok
  rw [queue] at distinct
  obtain ⟨behind, _⟩ := List.pairwise_cons.mp (List.pairwise_append.mp distinct).2.1
  exact fun x hx same => behind x hx ⟨same.1.symm, same.2.symm⟩

/-- An offer looks at the head first, and passes it over only where it is an RB that sits out (R135). -/
theorem offered_of_fit {eligible : Bool} {e : Entry} (fit : e.frame.kind ≠ .rb ∨ eligible = true) (rest : List Entry) :
    offered eligible (e :: rest) = some e :=
  if_neg fun ⟨rb, sitsOut⟩ => fit.elim (fun notRb => notRb rb) fun eligible => nomatch sitsOut.symm.trans eligible

theorem offered_of_sitsOut {eligible : Bool} {e : Entry} (rb : e.frame.kind = .rb) (sitsOut : eligible = false)
    (rest : List Entry) : offered eligible (e :: rest) = rest.head? := if_pos ⟨rb, sitsOut⟩

theorem putOnLine_of_absent {p : Post} {q : List Entry} (absent : ∀ x ∈ q, x.frame ≠ p) : putOnLine p q = q :=
  (List.map_congr_left fun x hx => if_neg (absent x hx)).trans (List.map_id q)

/-- The entry offered goes ON_LINE, and no other where no other has its frame (R135). -/
theorem putOnLine_cons {e : Entry} {rest : List Entry} (others : ∀ x ∈ rest, x.frame ≠ e.frame) :
    putOnLine e.frame (e :: rest) = { e with phase := .onLine .none } :: rest := by
  have stay := putOnLine_of_absent others
  unfold putOnLine at stay ⊢
  rw [List.map_cons, if_pos rfl, stay]

theorem putOnLine_cons_other {p : Post} {head : Entry} (other : head.frame ≠ p) (rest : List Entry) :
    putOnLine p (head :: rest) = head :: putOnLine p rest := by
  unfold putOnLine
  rw [List.map_cons, if_neg other]

/-! ### The attempt -/

/-- The conditions at the station for an attempt, one by one (R103). -/
theorem State.mayAttempt_iff (s : State) :
    s.mayAttempt = true ↔
      s.mode = .run ∧ s.line.tx = none ∧ s.line.breakInProgress = false ∧ s.line.driver = .off := by
  unfold State.mayAttempt State.driverPulls
  simp only [Bool.and_eq_true, beq_iff_eq, Option.isNone_iff_eq_none, Bool.not_eq_true', bne_eq_false_iff_eq, and_assoc]

/-- The station is kept from an attempt, or has no entry to offer (R103, R135). -/
abbrev State.offersNothing (s : State) : Prop :=
  s.mode ≠ .run ∨ s.line.tx.isSome = true ∨ s.line.breakInProgress = true ∨ s.line.driver ≠ .off ∨ s.queue = []

/-- Outside the conditions of R103 no attempt is made, and one with an empty queue passes. -/
theorem State.attempt_of_offersNothing (nothing : s.offersNothing) : s.attempt = s := by
  cases may : s.mayAttempt with
  | false => exact State.attempt_barred may
  | true =>
    obtain ⟨run, idle, unbroken, off⟩ := s.mayAttempt_iff.mp may
    rcases nothing with other | sending | broken | drives | empty
    · exact absurd run other
    · rw [idle] at sending
      cases sending
    · rw [unbroken] at broken
      cases broken
    · exact absurd off drives
    · unfold State.attempt
      rw [if_pos may, State.refreshedQueue_eq, empty]
      show { s with queue := [] } = s
      rw [← empty]

/-- An attempt moves the transmitter and the queue alone. -/
theorem State.attempt_frame (s : State) :
    s.attempt = { s with line := { s.line with tx := s.attempt.line.tx }, queue := s.attempt.queue } := by
  unfold State.attempt
  split
  · dsimp only
    split <;> rfl
  · rfl

theorem State.line_attempt (s : State) : s.attempt.line = { s.line with tx := s.attempt.line.tx } :=
  congrArg State.line s.attempt_frame

theorem State.attempt_offers (may : s.mayAttempt = true) {e : Entry}
    (offers : offered s.eligible s.refreshedQueue = some e) :
    s.attempt = { s with line := { s.line with tx := (s.begins e.frame).tx },
                         queue := putOnLine e.frame s.refreshedQueue } := by
  unfold State.attempt
  rw [if_pos may]
  dsimp only
  rw [offers]
  rfl

theorem State.attempt_passes (may : s.mayAttempt = true) (passes : offered s.eligible s.refreshedQueue = none) :
    s.attempt = { s with queue := s.refreshedQueue } := by
  unfold State.attempt
  rw [if_pos may]
  dsimp only
  rw [passes]

/-- The head is offered (R135). -/
theorem State.attempt_head (may : s.mayAttempt = true) {e : Entry} {rest : List Entry} (queue : s.queue = e :: rest)
    (distinct : ∀ x ∈ rest, ¬ (x.frame.kind = e.frame.kind ∧ x.frame.loc = e.frame.loc))
    (fit : e.frame.kind ≠ .rb ∨ s.eligible = true) :
    s.attempt = { s with line := { s.line with tx := (s.begins (s.refreshedEntry e).frame).tx },
                         queue := { s.refreshedEntry e with phase := .onLine .none } ::
                           rest.map s.refreshedEntry } := by
  have refreshed : s.refreshedQueue = s.refreshedEntry e :: rest.map s.refreshedEntry := by
    rw [State.refreshedQueue_eq, queue, List.map_cons]
  have offers : offered s.eligible s.refreshedQueue = some (s.refreshedEntry e) := by
    rw [refreshed]
    exact offered_of_fit (by rwa [State.kind_refreshedEntry]) _
  have others : ∀ x ∈ rest.map s.refreshedEntry, x.frame ≠ (s.refreshedEntry e).frame := by
    intro x hx same
    obtain ⟨y, hy, rfl⟩ := List.mem_map.mp hx
    refine distinct y hy ⟨?_, ?_⟩
    · rw [← State.kind_refreshedEntry s y, same, State.kind_refreshedEntry]
    · rw [← State.loc_refreshedEntry s y, same, State.loc_refreshedEntry]
  rw [State.attempt_offers may offers, refreshed, putOnLine_cons others]

/-- An RB that sits out alone: nothing is offered, and its nibble is set (R135). -/
theorem State.attempt_sitsOut_alone (may : s.mayAttempt = true) {e : Entry} (queue : s.queue = [e])
    (rb : e.frame.kind = .rb) (sitsOut : s.eligible = false) :
    s.attempt = { s with queue := [s.refreshedEntry e] } := by
  have refreshed : s.refreshedQueue = [s.refreshedEntry e] := by
    rw [State.refreshedQueue_eq, queue, List.map_singleton]
  have passes : offered s.eligible s.refreshedQueue = none := by
    rw [refreshed]
    exact offered_of_sitsOut ((State.kind_refreshedEntry s e).trans rb) sitsOut []
  rw [State.attempt_passes may passes, refreshed]

/-- The entry behind an RB that sits out is offered (R135). -/
theorem State.attempt_behind (may : s.mayAttempt = true) (ok : s.QueueOk) {e x : Entry} {more : List Entry}
    (queue : s.queue = e :: x :: more) (rb : e.frame.kind = .rb) (sitsOut : s.eligible = false) :
    s.attempt = { s with line := { s.line with tx := (s.begins x.frame).tx },
                         queue := s.refreshedEntry e :: { x with phase := .onLine .none } :: more } := by
  have noRb := State.noRb_behind ok queue rb
  have refreshed : s.refreshedQueue = s.refreshedEntry e :: x :: more := by
    rw [State.refreshedQueue_eq, queue, List.map_cons, map_refreshedEntry_of_noRb noRb]
  have headRb : (s.refreshedEntry e).frame.kind = .rb := (State.kind_refreshedEntry s e).trans rb
  have offers : offered s.eligible s.refreshedQueue = some x := by
    rw [refreshed]
    exact offered_of_sitsOut headRb sitsOut _
  have other : (s.refreshedEntry e).frame ≠ x.frame := by
    intro same
    rw [same] at headRb
    exact noRb x List.mem_cons_self headRb
  have others : ∀ y ∈ more, y.frame ≠ x.frame := fun y hy same =>
    State.distinct_behind (before := [e]) ok queue y hy ⟨congrArg Post.kind same, congrArg Post.loc same⟩
  rw [State.attempt_offers may offers, refreshed, putOnLine_cons_other other, putOnLine_cons others]

/-! ### The idle gap -/

/-- The line at an idle gap: recessive, with the idle timer at NIDLE and the receiver out of AWAIT_IDLE (R94, R97). -/
def LineInterface.gapShown (l : LineInterface) : LineInterface := { l with pulled := false }.recessive.idleNow

/-- The assembly behind an idle gap: a frame held is a GAP error (R101). -/
def Handler.afterGap (h : Handler) : Handler := if h.held = [] then h else { held := [], hunt := true }

/-- The state in which the self-start attempt of an idle gap is made (R94, R97, R101, R103). -/
def State.gapTaken (s : State) : State := { s with line := s.line.gapShown, handler := s.handler.afterGap }

theorem State.idleGap_of_free (free : s.selfPulls = false) : s.idleGap = s.gapTaken.attempt := by
  have gap (u : State) : u.gapError = { u with handler := u.handler.afterGap } := by
    unfold State.gapError State.discardAssembly Handler.afterGap
    split <;> rfl
  unfold State.idleGap
  rw [if_neg (by rw [free]; decide), State.showHigh_of_free free, gap]
  rfl

theorem LineInterface.phase_gapShown (l : LineInterface) :
    l.gapShown.rx.phase = if l.rx.phase = .awaitIdle then .ready else l.rx.phase := rfl

/-! ### The join -/

/-- A join inside a frame, in hunt or below NJOIN makes no attempt: it is a falling edge (R103). -/
theorem State.joinEdge_barred {idle : Nat} (barred : idle < 10 ∨ s.handler.hunt = true ∨ s.handler.held ≠ []) :
    s.joinEdge idle = s.fallingEdge idle := by
  have noAttempt : ¬ (Config.NJOIN ≤ idle ∧ s.handler.held = [] ∧ s.handler.hunt = false) := by
    rintro ⟨joins, held, hunt⟩
    rcases barred with below | hunts | holds
    · exact absurd joins (Nat.not_le.mpr below)
    · rw [hunt] at hunts
      cases hunts
    · exact holds held
  unfold State.joinEdge
  dsimp only
  rw [if_neg noAttempt]
  rfl

/-- A join at NJOIN or more at position 0 makes its attempt on the edge, which the receiver then takes (R95, R103). -/
theorem State.joinEdge_attempts {idle : Nat} (joins : 10 ≤ idle) (hunt : s.handler.hunt = false)
    (held : s.handler.held = []) : s.joinEdge idle = s.edgeShown.attempt.edgeTaken idle := by
  unfold State.joinEdge
  dsimp only
  rw [if_pos ⟨joins, held, hunt⟩]

theorem State.sameOutsideLine_edgeShown (s : State) : State.sameOutsideLine s s.edgeShown :=
  State.sameOutsideLine_trans (State.sameOutsideLine_showLine .low s) (State.sameOutsideLine_modLine _ _)

/-- The edge leaves the transmitter and the driver, and ends at most an earlier break (R109). -/
theorem State.line_edgeShown (s : State) :
    s.edgeShown.line.tx = s.line.tx ∧ s.edgeShown.line.driver = s.line.driver ∧
      (s.line.breakInProgress = false → s.edgeShown.line.breakInProgress = false) := by
  have tx := State.tx_showLine .low s
  have driver := State.driver_showLine .low s
  have inProgress := State.breakInProgress_showLine .low s
  unfold State.edgeShown
  split
  · exact ⟨tx, driver, fun unbroken => inProgress.trans unbroken⟩
  · refine ⟨tx, driver, fun unbroken => ?_⟩
    have ended := inProgress.trans unbroken
    show ((s.showLine .low).line.breakInProgress && _) = false
    rw [ended, Bool.false_and]

/-- The receiver's edge leaves the transmitter and the timers. -/
theorem State.tx_idle_edgeTaken (idle : Nat) (s : State) :
    (s.edgeTaken idle).line.tx = s.line.tx ∧ (s.edgeTaken idle).line.idle = s.line.idle := by
  unfold State.edgeTaken
  split <;> exact ⟨rfl, rfl⟩

end Sys2Proof.Machine

open Sys2Proof Sys2Proof.Machine

/-- Settles O36: by what keeps the attempt back, and by the head of the queue. -/
theorem attemptOffersHead : Obligations.AttemptOffersHead := by
  intro s
  let boundary : State := s.modLine (fun l => { l with bitLeft := Config.tBIT })
  have attempts (idle : s.line.idle = 11) : exec .idleBoundaryAttempt s = .next boundary.attempt :=
    congrArg Host.Outcome.next (if_pos idle)
  refine ⟨?_, ?_⟩
  · intro kept
    by_cases idle : s.line.idle = 11
    · have nothing : boundary.offersNothing := by
        rcases kept with other | sending | broken | drives | notIdle | empty
        · exact Or.inl other
        · exact Or.inr (Or.inl sending)
        · exact Or.inr (Or.inr (Or.inl broken))
        · exact Or.inr (Or.inr (Or.inr (Or.inl drives)))
        · exact absurd idle notIdle
        · exact Or.inr (Or.inr (Or.inr (Or.inr empty)))
      rw [attempts idle, State.attempt_of_offersNothing nothing]
      rfl
    · exact congrArg Host.Outcome.next (if_neg idle)
  · intro idle ok tx unbroken off run e rest queue
    have may : boundary.mayAttempt = true := boundary.mayAttempt_iff.mpr ⟨run, tx, unbroken, off⟩
    refine ⟨fun fit => ?_, fun rb sitsOut alone => ?_, fun rb sitsOut x more behind => ?_⟩
    · rw [attempts idle, State.attempt_head may queue (State.distinct_behind (before := []) ok queue) fit]
      rfl
    · rw [alone] at queue
      rw [attempts idle, State.attempt_sitsOut_alone may queue rb sitsOut]
      rfl
    · rw [behind] at queue
      rw [attempts idle, State.attempt_behind may ok queue rb sitsOut]
      rfl

/-- Settles O35: the line and the assembly at the gap, and the attempt made behind them. -/
theorem idleGapEndsAssembly : Obligations.IdleGapEndsAssembly := by
  intro s
  refine ⟨fun pulls => congrArg Host.Outcome.next (if_pos pulls), fun free =>
    ⟨s.gapTaken.attempt, congrArg Host.Outcome.next (State.idleGap_of_free free), ?_⟩⟩
  have frame := State.attempt_frame s.gapTaken
  have handler : s.gapTaken.attempt.handler = s.handler.afterGap := congrArg State.handler frame
  have phase : s.gapTaken.attempt.line.rx.phase =
      if s.line.rx.phase = .awaitIdle then .ready else s.line.rx.phase := by
    rw [State.line_attempt]
    exact LineInterface.phase_gapShown s.line
  have inProgress : s.gapTaken.attempt.line.breakInProgress = s.gapTaken.line.breakInProgress := by
    rw [State.line_attempt]
  refine ⟨by rw [State.line_attempt]; rfl, fun waits => ?_, fun other => ?_, fun holds => ?_, fun holds => ?_,
    fun kept => ?_, fun run tx unbroken off ok e rest queue => ?_, ?_⟩
  · exact phase.trans (if_pos waits)
  · exact phase.trans (if_neg other)
  · exact handler.trans (if_neg holds)
  · exact handler.trans (if_pos holds)
  · rw [inProgress] at kept
    rw [State.attempt_of_offersNothing (s := s.gapTaken) kept]
    exact ⟨rfl, rfl⟩
  · rw [inProgress] at unbroken
    have may : s.gapTaken.mayAttempt = true := s.gapTaken.mayAttempt_iff.mpr ⟨run, tx, unbroken, off⟩
    have ok' : s.gapTaken.QueueOk := ok
    refine ⟨fun fit => ?_, fun rb sitsOut alone => ?_, fun rb sitsOut x more behind => ?_⟩
    · rw [State.attempt_head may queue (State.distinct_behind (before := []) ok queue) fit]
      exact ⟨rfl, rfl⟩
    · rw [alone] at queue
      rw [State.attempt_sitsOut_alone may queue rb sitsOut]
      exact ⟨tx, rfl⟩
    · rw [behind] at queue
      rw [State.attempt_behind may ok' queue rb sitsOut]
      exact ⟨rfl, rfl⟩
  · rw [frame]
    rfl

/-- Settles O37: below NJOIN, in hunt and inside a frame a join is a falling edge; else it offers the head on it. -/
theorem joinNeedsThreshold : Obligations.JoinNeedsThreshold := by
  intro s idle
  refine ⟨fun barred => congrArg Host.Outcome.next (State.joinEdge_barred barred), ?_⟩
  intro joins hunt held run tx unbroken off e queue notRb
  obtain ⟨sameTx, sameDriver, staysUnbroken⟩ := State.line_edgeShown s
  have restarts := State.idle_edgeShown s
  have shown := State.sameOutsideLine_edgeShown s
  have next : exec (.join idle) s = .next (s.edgeShown.attempt.edgeTaken idle.val) :=
    congrArg Host.Outcome.next (State.joinEdge_attempts joins hunt held)
  rw [tx] at sameTx
  rw [off] at sameDriver
  have unbroken' := staysUnbroken unbroken
  generalize s.edgeShown = u at *
  have unmoved := State.unmoved_of_sameOutsideLine shown
  unfold State.sameOutsideLine at shown
  have run' : u.mode = .run := unmoved.mode.trans run
  have queue' : u.queue = [e] := (congrArg State.queue shown).trans queue
  have id : u.stationId = s.stationId := State.stationId_congr unmoved.config
  have offers := State.attempt_head (u.mayAttempt_iff.mpr ⟨run', sameTx, unbroken', sameDriver⟩) queue' nofun
    (Or.inl notRb)
  rw [State.refreshedEntry_of_ne_rb notRb] at offers
  obtain ⟨txTaken, idleTaken⟩ := State.tx_idle_edgeTaken idle.val u.attempt
  have taken := State.sameOutsideLine_edgeTaken idle.val u.attempt
  generalize u.attempt.edgeTaken idle.val = t at *
  unfold State.sameOutsideLine at taken
  refine ⟨t, next, ?_, ?_, ?_, ?_⟩
  · rw [txTaken, offers, ← id]
    rfl
  · rw [taken, offers]
    rfl
  · rw [idleTaken, offers]
    exact restarts
  · rw [taken, offers, shown]

end

section
/-! PROOFS. The frame that is not completed (R102, R105, R106): the loss of arbitration, the driver fault, which enters QUIET
(R189), and the detected break, which halts the station (R172). -/

namespace Sys2Proof.Machine

variable {s u : State}

/-! ### The abandoned attempt -/

theorem State.endAttempt_of_sending (sending : s.line.tx.isSome = true) :
    s.endAttempt = (s.settleAttempt false).modLine (fun l => { l with tx := none }) := if_pos sending

theorem State.sameOutsideAttempt_of_line {t : State} (h : State.sameOutsideAttempt s t)
    (h' : State.sameOutsideLine t u) : State.sameOutsideAttempt s u := by
  unfold State.sameOutsideAttempt at *
  unfold State.sameOutsideLine at h'
  rw [h', h]

/-- An attempt ended on a line that shows a level has moved the line and the queue alone. -/
theorem State.sameOutsideAttempt_endShown (level : Level) (s : State) :
    State.sameOutsideAttempt s (s.endAttempt.showLine level) :=
  State.sameOutsideAttempt_of_line (State.sameOutsideAttempt_endAttempt s) (State.sameOutsideLine_showLine level _)

/-- The entry of an abandoned frame waits again, unless it was withdrawn (R136). -/
theorem State.settleAttempt_abandoned {e : Entry} (there : e ∈ s.queue)
    (onLine : e.phase = .onLine .none ∨ e.phase = .onLine .changed) :
    { e with phase := .waiting } ∈ (s.settleAttempt false).queue := by
  rcases onLine with unmarked | changed
  · refine List.mem_filterMap.mpr ⟨e, there, ?_⟩
    unfold Entry.settled
    rw [unmarked]
    rfl
  · exact State.settleAttempt_changed false there changed

/-- What an attempt leaves in the queue carries a frame that was there and was not withdrawn (R136). -/
theorem State.mem_settleAttempt {completed : Bool} {x : Entry} (h : x ∈ (s.settleAttempt completed).queue) :
    ∃ y ∈ s.queue, y.frame = x.frame ∧ y.phase ≠ .onLine .withdrawn := by
  obtain ⟨y, there, left⟩ := List.mem_filterMap.mp h
  refine ⟨y, there, ?_⟩
  unfold Entry.settled at left
  split at left
  · rename_i waits
    cases left
    exact ⟨rfl, by rw [waits]; exact nofun⟩
  · cases left
  · rename_i changed
    cases left
    exact ⟨rfl, by rw [changed]; exact nofun⟩
  · rename_i unmarked
    split at left
    · cases left
    · cases left
      exact ⟨rfl, by rw [unmarked]; exact nofun⟩

/-! ### The loss of arbitration -/

/-- The line at a loss of arbitration: dominant, with the transmitter IDLE and the idle timer at 0, and brought to the
sample where the part's own time has not come there (R94, R105; log entry 2). -/
theorem State.arbitrationLost_cases (run : s.mode = .run) (sending : s.line.tx.isSome = true) :
    s.arbitrationLost = s.endAttempt.showLine .low ∨
      s.arbitrationLost = (s.endAttempt.showLine .low).modLine (LineInterface.dominantFor Config.tHALF) := by
  unfold State.arbitrationLost
  rw [if_pos ⟨run, sending⟩]
  dsimp only
  split
  · exact Or.inl rfl
  · exact Or.inr rfl

theorem State.arbitrationLost_line (run : s.mode = .run) (sending : s.line.tx.isSome = true) :
    s.arbitrationLost.line.tx = none ∧ s.arbitrationLost.lineLevel = .low ∧ s.arbitrationLost.line.idle = 0 := by
  have tx := (State.tx_showLine .low s.endAttempt).trans (State.tx_endAttempt s)
  have level := State.lineLevel_showLow s.endAttempt
  have idle := (State.idle_showLow s.endAttempt).1
  rcases State.arbitrationLost_cases run sending with same | same <;> rw [same]
  · exact ⟨tx, level, idle⟩
  · exact ⟨tx, level, idle⟩

theorem State.arbitrationLost_frame (run : s.mode = .run) (sending : s.line.tx.isSome = true) :
    s.arbitrationLost = { s with line := s.arbitrationLost.line, queue := (s.settleAttempt false).queue } := by
  have shown := State.sameOutsideLine_showLine .low s.endAttempt
  rw [State.endAttempt_of_sending sending] at shown
  have lost : State.sameOutsideLine ((s.settleAttempt false).modLine (fun l => { l with tx := none }))
      s.arbitrationLost := by
    rcases State.arbitrationLost_cases run sending with same | same <;>
      rw [same, State.endAttempt_of_sending sending]
    · exact shown
    · exact State.sameOutsideLine_trans shown (State.sameOutsideLine_modLine _ _)
  exact lost

/-! ### The entry to QUIET -/

/-- With START absent the entry to QUIET ends no halt (R189). -/
theorem State.enterQuiet_of_startAbsent (absent : s.halt.start = false) :
    s.enterQuiet =
      { s with mode := .quiet, queue := [], ramp := { s.ramp with rbDistrict := none, chosen := none },
               line := { s.line with tx := none }, alert := true } := by
  have halt : s.halt.put .start false = s.halt := by
    unfold HaltCauses.put
    rw [← absent]
  unfold State.enterQuiet
  rw [halt]
  refine if_neg ?_
  rintro ⟨halted, ended⟩
  exact nomatch halted.symm.trans ended

/-- The direct start starts the ramp of one QUEUED district in QUIET, or none (R161). -/
theorem State.directStart_cases (s : State) :
    s.directStart = s ∨ ∃ k, (s.record k).state = .queued ∧ s.directStart = s.startRamp k := by
  unfold State.directStart
  split
  · split
    · rename_i k longest
      exact Or.inr ⟨k, longestQueued_queued longest, rfl⟩
    · exact Or.inl rfl
  · exact Or.inl rfl

/-- The direct start adds at most an own entry to the ramp list, and withdraws at most an RB (R137, R149). -/
structure State.StartsAtMost (s t : State) : Prop where
  outside : State.sameOutsideDistricts s t
  record : ∀ k : District, (s.record k).state ≠ .queued → t.record k = s.record k
  relays : t.relays = s.relays
  alert : t.alert = s.alert
  list : ∀ e ∈ s.ramp.list, e ∈ t.ramp.list
  ramp : t.ramp = { s.ramp with list := t.ramp.list, rbDistrict := t.ramp.rbDistrict }
  rbDistrict : s.ramp.rbDistrict = none → t.ramp.rbDistrict = none
  queue : s.queue = [] → t.queue = []

theorem State.startsAtMost_directStart (s : State) : s.StartsAtMost s.directStart := by
  have relays : s.directStart.relays = s.relays := PerDistrict.ext_get fun k => State.relay_directStart s k
  have record (k : District) (notQueued : (s.record k).state ≠ .queued) : s.directStart.record k = s.record k :=
    (State.record_directStart s k).resolve_right fun ⟨_, queued, _⟩ => notQueued queued
  refine ⟨State.sameOutside_directStart s, record, relays, State.alert_directStart s, ?_, ?_, ?_, ?_⟩ <;>
    rcases State.directStart_cases s with same | ⟨k, queued, same⟩ <;> rw [same]
  · exact fun _ there => there
  · rw [(State.startRamp_of_queued queued).2]
    exact fun _ there => List.mem_append_left _ there
  · rw [(State.startRamp_of_queued queued).2]
  · exact id
  · rw [(State.startRamp_of_queued queued).2]
    intro none
    dsimp only
    rw [none]
    rfl
  · exact id
  · rw [(State.startRamp_of_queued queued).1]
    intro empty
    show s.queue.filterMap _ = []
    rw [empty]
    rfl

/-- The state in which a driver fault enters QUIET (R106). -/
def State.faultShown (s : State) : State := s.endAttempt.showLine .high

/-- The entry to QUIET of a driver fault, before the direct start is tested (R106, R140, R162, R189). -/
def State.faultTaken (s : State) : State :=
  { s with mode := .quiet, queue := [], ramp := { s.ramp with rbDistrict := none, chosen := none },
           line := { s.faultShown.line with tx := none }, alert := true }

/-- With START absent a driver fault enters QUIET, and at most a direct start follows (R106, R161, R189). -/
theorem State.driverFault_eq (run : s.mode = .run) (sending : s.line.tx.isSome = true)
    (absent : s.halt.start = false) : s.driverFault = s.faultTaken.directStart := by
  have shown : State.sameOutsideAttempt s s.faultShown := State.sameOutsideAttempt_endShown .high s
  have absentAfter : s.faultShown.halt.start = false := by
    rw [shown]
    exact absent
  have entered : s.faultShown.enterQuiet = s.faultTaken := by
    rw [State.enterQuiet_of_startAbsent absentAfter, shown]
    rfl
  have faults : s.driverFault = State.followUp s s.faultShown.enterQuiet := if_pos ⟨run, sending⟩
  rw [faults, entered]
  exact State.followUp_sameQueued rfl

/-- With the break driver off the released pin reads recessive, and the dominant timer is at 0 (R106, R108). -/
theorem State.faultShown_line (off : s.line.driver = .off) :
    s.faultShown.line.pulled = false ∧ s.faultShown.line.driver = .off ∧ s.faultShown.line.dominant = 0 := by
  have driver : s.endAttempt.line.driver = s.line.driver := by
    unfold State.endAttempt
    split <;> rfl
  have free : s.endAttempt.selfPulls = false :=
    State.selfPulls_of_idle (State.tx_endAttempt s) (driver.trans off)
  unfold State.faultShown
  rw [State.showHigh_of_free free]
  exact ⟨rfl, driver.trans off, rfl⟩

/-- A line that no station pulls reads recessive (R90). -/
theorem State.lineLevel_of_free (unpulled : s.line.pulled = false) (free : s.selfPulls = false) :
    s.lineLevel = .high := by
  unfold State.lineLevel
  rw [unpulled, free]
  rfl

/-! ### The detected break -/

/-- The line at a detected break: dominant for tBREAK, with no edge due, and the transmitter IDLE (R102, R108). -/
def State.breakShown (s : State) : State :=
  (s.endAttempt.showLine .low).modLine (fun l =>
    { l.notIdle with was := .low, dominant := Config.tBREAK, breakInProgress := true, breakSeen := true })

/-- The receiver awaits idle and the assembly is in hunt, before LINE_STOP is set (R97, R102). -/
def State.breakTaken (s : State) : State := s.breakShown.awaitIdle.discardAssembly

theorem State.breakDetected_eq (s : State) :
    s.breakDetected = State.followUp s (s.breakTaken.setCause .lineStop) := rfl

/-- Before LINE_STOP is set a break moves the line, the assembly and the queue alone. -/
theorem State.breakTaken_frame (s : State) :
    s.breakTaken = { s with line := s.breakTaken.line, handler := { held := [], hunt := true },
                            queue := s.breakTaken.queue } := by
  have shown := State.sameOutsideAttempt_endShown .low s
  unfold State.sameOutsideAttempt at shown
  unfold State.breakTaken State.breakShown
  generalize s.endAttempt.showLine .low = u at shown ⊢
  rw [shown]
  rfl

theorem State.breakTaken_line (s : State) :
    s.breakTaken.lineLevel = .low ∧ s.breakTaken.line.was = .low ∧ s.breakTaken.line.dominant = 2000 ∧
      s.breakTaken.line.breakInProgress = true ∧ s.breakTaken.line.tx = none ∧
      s.breakTaken.line.rx.phase = .awaitIdle ∧ s.breakTaken.line.rx.slots = [] ∧ s.breakTaken.line.idle = 0 := by
  have level := State.lineLevel_showLow s.endAttempt
  have tx := (State.tx_showLine .low s.endAttempt).trans (State.tx_endAttempt s)
  unfold State.breakTaken State.breakShown
  generalize s.endAttempt.showLine .low = u at level tx
  exact ⟨level, rfl, rfl, rfl, tx, rfl, rfl, rfl⟩

/-- What a break leaves beside the districts, the queue and the ramp list unit. -/
theorem State.breakDetected_frame (s : State) :
    s.breakDetected.line = s.breakTaken.line ∧ s.breakDetected.handler = { held := [], hunt := true } ∧
      s.breakDetected.halt = { s.halt with lineStop := true } ∧ s.breakDetected.mode = s.mode ∧
      s.breakDetected.alert = s.alert := by
  have follows := State.sameOutside_followUp s (s.breakTaken.setCause .lineStop)
  have line := State.line_of_sameOutside follows
  have handler := State.handler_of_sameOutside follows
  have halt := State.halt_of_sameOutside follows
  have mode := State.mode_of_sameOutside follows
  have alert := (State.alert_followUp s (s.breakTaken.setCause .lineStop)).trans (State.alert_setCause _ _)
  rw [← State.breakDetected_eq] at line handler halt mode alert
  rw [State.setCause_frame] at line handler halt mode
  rw [line, handler, halt, mode, alert]
  dsimp only
  rw [State.breakTaken_frame]
  exact ⟨rfl, rfl, rfl, rfl, rfl⟩

end Sys2Proof.Machine

open Sys2Proof Sys2Proof.Machine

/-- Settles O38: the attempt ends uncompleted, and the line reads dominant. -/
theorem arbitrationLossSettles : Obligations.ArbitrationLossSettles := by
  intro s run sending
  obtain ⟨tx, level, idle⟩ := State.arbitrationLost_line run sending
  have frame := State.arbitrationLost_frame run sending
  have queue : s.arbitrationLost.queue = (s.settleAttempt false).queue := by
    rw [frame]
  refine ⟨s.arbitrationLost, rfl, tx, level, idle, ?_, ?_, ?_, by rw [queue]; exact frame⟩ <;> rw [queue]
  · exact fun e there waits => State.settleAttempt_keeps there waits
  · exact fun e there onLine => State.settleAttempt_abandoned there onLine
  · exact fun e left => ⟨State.settleAttempt_waiting left, State.mem_settleAttempt left⟩

/-- Settles O39: the attempt ends on a released pin, the station enters QUIET, and at most a direct start follows. -/
theorem driverFaultEntersQuiet : Obligations.DriverFaultEntersQuiet := by
  intro s run sending absent
  have starts := State.startsAtMost_directStart s.faultTaken
  rw [← State.driverFault_eq run sending absent] at starts
  have line := State.line_of_sameOutside starts.outside
  have halt := State.halt_of_sameOutside starts.outside
  have config := State.config_of_sameOutside starts.outside
  refine ⟨s.driverFault, rfl, State.mode_of_sameOutside starts.outside, congrArg LineInterface.tx line,
    starts.queue rfl, starts.rbDistrict rfl, starts.alert, fun off => ?_, halt, config, starts.relays, starts.list,
    ?_, ?_, ?_, starts.record⟩
  · obtain ⟨unpulled, driver, dominant⟩ := State.faultShown_line off
    refine ⟨State.lineLevel_of_free ?_ (State.selfPulls_of_idle ?_ ?_), ?_⟩ <;> rw [line]
    · exact unpulled
    · rfl
    · exact driver
    · exact dominant
  all_goals
    rw [starts.ramp]
    rfl

/-- Settles O40: the line and the assembly at the break, and LINE_STOP set on them in every mode. -/
theorem breakStopsStation : Obligations.BreakStopsStation := by
  intro s
  obtain ⟨line, handler, halt, mode, alert⟩ := State.breakDetected_frame s
  obtain ⟨level, was, dominant, inProgress, tx, phase, slots, idle⟩ := State.breakTaken_line s
  have taken := State.breakTaken_frame s
  have modeTaken : s.breakTaken.mode = s.mode := by rw [taken]
  have ramp : s.breakTaken.ramp = s.ramp := by rw [taken]
  have districts : s.breakTaken.districts = s.districts := by rw [taken]
  have relays : s.breakTaken.relays = s.relays := by rw [taken]
  have halted : s.breakTaken.halted = s.halted := State.halted_congr (by rw [taken])
  have dominates := (State.lineLevel_congr line (mode.trans modeTaken.symm)).trans level
  obtain ⟨list, floor, holdoff, intentAge⟩ := State.ramp_setLineStop s.breakTaken
  have noRs := State.noRsWaits_setLineStop s.breakTaken
  have follows := State.followUp_setCause districts .lineStop
  have halts (running : s.halted = false) (k : District) : s.haltsDistrict s.breakDetected k :=
    State.haltsDistrict_followUp_setCause k districts relays .lineStop (halted.trans running)
  rw [← State.breakDetected_eq] at follows
  rw [ramp] at floor holdoff intentAge
  refine ⟨s.breakDetected, rfl, dominates, ?_⟩
  rw [line, handler, halt]
  refine ⟨was, dominant, inProgress, tx, phase, slots, idle, rfl, rfl, ?_, ?_, ?_, ?_, ?_, fun running k => ?_,
    fun stands => ?_, alert, mode⟩
  · rw [follows]
    exact list
  · rw [follows]
    exact floor
  · rw [follows]
    exact holdoff
  · rw [follows]
    exact intentAge
  · rw [follows]
    exact noRs
  · obtain ⟨state, gate, n, lastFault⟩ := State.haltsDistrict_keeps (halts running k)
    obtain ⟨_, enters, _⟩ := halts running k
    refine ⟨state, gate, n, lastFault, fun notHalted => ?_⟩
    obtain ⟨_, _, _, _, _, _, _, _, _, _, _, _, _, _, _, confirmPending⟩ := enters notHalted
    exact confirmPending
  · rw [follows, State.setCause_of_halted .lineStop (halted.trans stands), State.causeSet_frame]
    exact districts

end

section
/-! PROOFS. The completion of an own TR, RE, RS or ST (R107, R125, R136, R138, R152): the settled queue, the hold-off of an
INRUSH, and the choice made again where there is no RB district (R155 to R157). -/

namespace Sys2Proof.Machine

variable {s : State} {f : Frame}

/-! ### The queue of a completed attempt -/

/-- What a completed attempt leaves stood waiting, or was marked changed and waits again (R136). -/
theorem State.mem_settleAttempt_completed_cases {x : Entry} (left : x ∈ (s.settleAttempt true).queue) :
    x ∈ s.queue ∨ ∃ e ∈ s.queue, e.phase = .onLine .changed ∧ x = { e with phase := .waiting } := by
  have waits := State.settleAttempt_waiting left
  obtain ⟨e, there, frame, stood⟩ := State.mem_settleAttempt_completed left
  obtain ⟨xf, xp⟩ := x
  obtain ⟨ef, ep⟩ := e
  cases frame
  cases waits
  rcases stood with waited | changed
  · cases waited
    exact Or.inl there
  · exact Or.inr ⟨_, there, changed, rfl⟩

/-- A completed attempt leaves room in a queue in order that had room or whose entry was sent unmarked (R130, R136). -/
theorem State.room_settleAttempt (ok : s.QueueOk)
    (room : s.queue.length < 8 ∨ ∃ e ∈ s.queue, e.phase = .onLine .none) :
    (s.settleAttempt true).queue.length < Config.NQUEUE := by
  obtain ⟨atMost, _⟩ := ok
  rcases room with few | ⟨e, there, sent⟩
  · exact Nat.lt_of_le_of_lt (List.length_filterMap_le _ s.queue) few
  · refine Nat.lt_of_lt_of_le ?_ atMost
    refine List.length_filterMap_lt_length_iff_exists.mpr ⟨e, there, ?_⟩
    unfold Entry.settled
    rw [sent]
    rfl

/-- A posting to a queue with room leaves every entry that it does not replace (R132). -/
theorem mem_postInto_of_room {p : Post} {q : List Entry} {x : Entry} (room : q.length < Config.NQUEUE) (there : x ∈ q)
    (spared : p.replaces x.frame = false) : x ∈ (postInto p q).queue := by
  unfold postInto
  split
  · exact (mem_insertByRank _ _ _).mpr (Or.inr (List.mem_filter.mpr ⟨there, by rw [spared]; rfl⟩))
  · rw [if_pos room]
    exact (mem_insertByRank _ _ _).mpr (Or.inr there)

/-- In a queue with room the RB of a choice replaces at most an RB (R132, R156). -/
theorem State.chooseAgain_keeps_of_room {x : Entry} (room : s.queue.length < Config.NQUEUE) (there : x ∈ s.queue)
    (notRb : x.frame.kind ≠ .rb) : x ∈ s.chooseAgain.queue := by
  rcases State.queue_chooseAgain s with same | ⟨j, _, same⟩ <;> rw [same]
  · exact there
  · refine mem_postInto_of_room room there ?_
    have other : ((s.rbPost j).kind == x.frame.kind) = false := beq_false_of_ne fun same => notRb same.symm
    unfold Post.replaces
    rw [other, Bool.false_and]

/-! ### The completion -/

/-- The own frames whose completion moves no district (R125). -/
abbrev Frame.reports (f : Frame) : Prop :=
  f.post.kind = .tr ∨ f.post.kind = .re ∨ f.post.kind = .rs ∨ f.post.kind = .st

/-- The hold-off behind the completion of an own frame: started by the TR of an INRUSH (R152). -/
def RampUnit.holdoffAfter (f : Frame) (r : RampUnit) : Option Nat :=
  if f.post.kind = .tr ∧ f.post.data.toNat / 16 = 3 then some 50 else r.holdoff

theorem State.dispatchOwn_of_reports (reports : f.reports) (s : State) :
    s.dispatchOwn f = s.modRamp (fun r => { r with holdoff := r.holdoffAfter f }) := by
  unfold State.dispatchOwn RampUnit.holdoffAfter
  rcases reports with tr | re | rs | st
  · rw [tr]
    by_cases inrush : f.post.data.toNat / 16 = 3
    · have told : tellsInrush f.post.data = true := beq_iff_eq.mpr inrush
      simp only [inrush, told]
      rfl
    · have other : tellsInrush f.post.data = false := beq_false_of_ne inrush
      simp only [inrush, other]
      rfl
  · rw [re]
    rfl
  · rw [rs]
    rfl
  · rw [st]
    rfl

/-- The state behind the completion, before the unit chooses again (R107, R125, R138). -/
def State.reported (f : Frame) (s : State) : State :=
  (s.completed f.post.data).modRamp (fun r => { r with holdoff := r.holdoffAfter f })

theorem State.reported_frame (f : Frame) (s : State) :
    s.reported f = { s with line := (s.reported f).line, handler := (s.reported f).handler,
                            queue := (s.settleAttempt true).queue,
                            ramp := { s.ramp with holdoff := s.ramp.holdoffAfter f } } := by
  have handed := State.onlyLine_frameComplete f.post.data
    ((s.settleAttempt true).modLine (fun l => { l with tx := none }))
  unfold State.onlyLine at handed
  unfold State.reported State.completed
  rw [handed]
  rfl

theorem State.tx_reported (f : Frame) (s : State) : (s.reported f).line.tx = none :=
  (State.completed_completed f.post.data s).idle

/-- In RUN the unit chooses again behind the completion where there is no RB district, and else not (R155, R157). -/
theorem State.ownCompletion_of_reports (reports : f.reports) (run : s.mode = .run)
    (sent : s.line.tx = some { frame := f, char := 3, t := 192 }) :
    s.ownCompletion f = if s.ramp.rbDistrict = none then (s.reported f).chooseAgain else s.reported f := by
  have notRb : f.post.kind ≠ .rb := by
    rcases reports with h | h | h | h <;> rw [h] <;> decide
  have dispatched : (s.completed f.post.data).dispatchOwn f = s.reported f := State.dispatchOwn_of_reports reports _
  have districts : (s.reported f).districts = s.districts := by rw [State.reported_frame]
  have notQuiet : (s.reported f).mode ≠ .quiet := by
    rw [State.reported_frame]
    exact fun quiet => nomatch run.symm.trans quiet
  rw [State.ownCompletion_sent sent, dispatched]
  dsimp only
  by_cases unoffered : s.ramp.rbDistrict = none
  · rw [if_pos (Or.inr unoffered), if_pos unoffered]
    refine State.directStart_outside_quiet ?_
    rwa [State.mode_of_sameOutside (State.sameOutside_chooseAgain _)]
  · rw [if_neg (not_or.mpr ⟨notRb, unoffered⟩), if_neg unoffered]
    rw [State.followUp_sameQueued (State.queuedDistricts_congr districts).symm]
    exact State.directStart_outside_quiet notQuiet

theorem exec_ownTrCompletion (run : s.mode = .run) (tr : f.post.kind = .tr)
    (sent : s.line.tx = some { frame := f, char := 3, t := 192 }) :
    exec .ownTrCompletion s = .next (s.ownCompletion f) :=
  congrArg Host.Outcome.next (State.completeInFlight_sent (about := fun kind => kind == .tr) run (beq_iff_eq.mpr tr) sent)

theorem exec_ownFrameCompletion (run : s.mode = .run)
    (kind : f.post.kind = .re ∨ f.post.kind = .rs ∨ f.post.kind = .st)
    (sent : s.line.tx = some { frame := f, char := 3, t := 192 }) :
    exec .ownFrameCompletion s = .next (s.ownCompletion f) := by
  refine congrArg Host.Outcome.next (State.completeInFlight_sent
    (about := fun kind => kind == .re || kind == .rs || kind == .st) run ?_ sent)
  rcases kind with h | h | h <;> rw [h] <;> rfl

end Sys2Proof.Machine

open Sys2Proof Sys2Proof.Machine

/-- Settles O53: both commands come to the completion of the frame in flight, which settles the queue, starts the
hold-off for an INRUSH, and is followed by a choice where there is no RB district. -/
theorem ownOtherCompletions : Obligations.OwnOtherCompletions := by
  intro s f run sent held settled completed
  have settles (t : State) (queue : t.queue = (s.settleAttempt true).queue) : settled t := by
    refine ⟨fun e there waits => ?_, fun e there changed => ?_, fun x left => ?_⟩
    · rw [queue]
      exact State.settleAttempt_keeps there waits
    · rw [queue]
      exact State.settleAttempt_changed true there changed
    · rw [queue] at left
      exact ⟨State.settleAttempt_waiting left, State.mem_settleAttempt_completed_cases left⟩
  have completes (reports : f.reports) : completed (s.ownCompletion f) := by
    have frame := State.reported_frame f s
    have tx := State.tx_reported f s
    rw [State.ownCompletion_of_reports reports run sent]
    generalize s.reported f = b at frame tx
    have queue : b.queue = (s.settleAttempt true).queue := by rw [frame]
    have mode : b.mode = .run := by rw [frame]; exact run
    have ramp : b.ramp = { s.ramp with holdoff := held } := by rw [frame]; rfl
    have districts : b.districts = s.districts := by rw [frame]
    by_cases unoffered : s.ramp.rbDistrict = none
    · rw [if_pos unoffered]
      have chooses := State.chooseAgain_frame b
      have line := State.line_of_sameOutside (State.sameOutside_chooseAgain b)
      have rbDistrict : b.ramp.rbDistrict = none := by rw [ramp]; exact unoffered
      refine ⟨by rw [line]; exact tx, fun other => absurd unoffered other, fun _ => ⟨?_, fun noneQueued => ?_,
        fun ok room => ?_⟩⟩
      · rw [chooses, frame]
        rfl
      · have noQueued : b.queuedDistricts = [] := by
          rw [State.queuedDistricts_congr districts]
          exact List.filter_eq_nil_iff.mpr fun j _ queued => noneQueued j (beq_iff_eq.mp queued)
        have same := State.chooseAgain_noneQueued noQueued
        exact ⟨settles _ (by rw [same]; exact queue), by rw [same]; exact rbDistrict⟩
      · have left : b.queue.length < Config.NQUEUE := by
          rw [queue]
          exact State.room_settleAttempt ok room
        refine ⟨fun e there waits notRb => ?_, fun j longest below =>
          State.chooseAgain_offersNext mode rbDistrict left longest below⟩
        refine State.chooseAgain_keeps_of_room left ?_ notRb
        rw [queue]
        exact State.settleAttempt_keeps there waits
    · rw [if_neg unoffered]
      exact ⟨tx, fun _ => ⟨settles b queue, by rw [queue]; exact frame⟩, fun none => absurd none unoffered⟩
  exact ⟨fun tr => ⟨_, exec_ownTrCompletion run tr sent, completes (Or.inl tr)⟩,
    fun kind => ⟨_, exec_ownFrameCompletion run kind sent, completes (Or.inr kind)⟩⟩

end

section
/-! PROOFS. Frames of other stations by their judgement (R117): those that the tests discard (R118 to R121), the duplicate
and what station control makes of it (R122, R123), and the RS, which clears LINE_STOP (R174). -/

namespace Sys2Proof.Machine

variable {s : State} {f : Frame}

/-! ### The command of a peer frame -/

theorem exec_peerFrame (kind : Kind) (b : FrameBody) (s : State) :
    exec (Frame.ofBody kind b).command s = .next (s.peerFrame (Frame.ofBody kind b)) := by
  cases kind <;> rfl

theorem State.assembles_iff : s.assembles = true ↔ s.mode ≠ .straps ∧ s.mode ≠ .selfTest := by
  unfold State.assembles
  rw [Bool.and_eq_true, bne_iff_ne, bne_iff_ne]

theorem State.breakInProgress_stopCounted (raw : RawChar) (s : State) :
    (s.stopCounted raw).line.breakInProgress = s.line.breakInProgress := by
  unfold State.stopCounted
  split <;> rfl

/-- No character ends a break (R109). -/
theorem State.breakInProgress_characterHanded (raw : RawChar) (s : State) :
    (s.characterHanded raw).line.breakInProgress = s.line.breakInProgress := by
  have recessive : (s.stopRecessive raw).line.breakInProgress = s.line.breakInProgress := by
    unfold State.stopRecessive
    rw [State.breakInProgress_stopCounted]
    split
    · rfl
    · exact State.breakInProgress_showLine .high s
  unfold State.characterHanded
  split
  · rfl
  · split
    · rfl
    · split
      · exact recessive
      · exact State.breakInProgress_showLine .low s

/-- A state that differs in the line and the assembly alone is read alike by the ramp list unit. -/
theorem State.unmoved_of_onlyLine {t : State} (same : State.onlyLine s t) : s.Unmoved t := by
  unfold State.onlyLine at same
  rw [same]
  exact State.unmoved_withLine s _ _

/-! ### Discarded frames -/

/-- Without a configuration every frame but an RS is discarded (R118). -/
theorem State.judge_unconfigured (unconfigured : s.config = none) (notRs : f.post.kind ≠ .rs) :
    s.judge f = .discarded := by
  have refused : (f.post.kind == .rs) = false := beq_false_of_ne notRs
  unfold State.judge
  rw [unconfigured, refused]
  cases s.mode <;> rfl

/-- In STRAP_FAULT every frame but an RS is discarded (R118). -/
theorem State.judge_strapFault (fault : s.mode = .strapFault) (notRs : f.post.kind ≠ .rs) :
    s.judge f = .discarded := by
  have refused : (f.post.kind == .rs) = false := beq_false_of_ne notRs
  unfold State.judge
  rw [fault, refused]
  rfl

/-- A frame of another station that the tests on its kind refuse is discarded in every mode (R117, R118). -/
theorem State.judge_discarded (peer : ∀ c, s.config = some c → f.sender ≠ c.id) (notRs : f.post.kind ≠ .rs)
    (refused : s.mode ≠ .strapFault → ∀ c, s.config = some c → judgeKind s.mode c f = .discarded) :
    s.judge f = .discarded := by
  cases config : s.config with
  | none => exact State.judge_unconfigured config notRs
  | some c =>
    have configured (handles : s.mode = .listen ∨ s.mode = .run ∨ s.mode = .quiet)
        (sound : s.mode ≠ .strapFault) : s.judge f = .discarded :=
      (State.judge_configured config (peer c config) handles).trans (refused sound c config)
    cases mode : s.mode with
    | straps =>
      unfold State.judge
      rw [mode]
    | selfTest =>
      unfold State.judge
      rw [mode]
    | strapFault => exact State.judge_strapFault mode notRs
    | listen => exact configured (Or.inl mode) (by rw [mode]; decide)
    | run => exact configured (Or.inr (Or.inl mode)) (by rw [mode]; decide)
    | quiet => exact configured (Or.inr (Or.inr mode)) (by rw [mode]; decide)

/-! ### Duplicates -/

/-- A frame with the own number is reported to station control, which acts by its mode (R117, R122, R123). -/
theorem State.peerFrame_ownNumber {c : StationConfig} (mode : s.mode = .listen ∨ s.mode = .run ∨ s.mode = .quiet)
    (config : s.config = some c) (own : f.sender = c.id) :
    ∃ m : State, State.onlyLine s m ∧ s.peerFrame f = State.followUp s m.duplicateReport := by
  have assembles : s.assembles = true := by
    rw [State.assembles_iff]
    rcases mode with h | h | h <;> rw [h] <;> decide
  exact ⟨s.frameComplete f.post.data, State.onlyLine_frameComplete _ s,
    State.peerFrame_duplicate assembles (State.judge_duplicate config own mode)⟩

theorem State.duplicateReport_listen (listen : s.mode = .listen) :
    s.duplicateReport = { s with duplicateNote := true } := by
  unfold State.duplicateReport
  rw [listen]

theorem State.duplicateReport_quiet (quiet : s.mode = .quiet) : s.duplicateReport = s := by
  unfold State.duplicateReport
  rw [quiet]

theorem State.duplicateReport_run (run : s.mode = .run) : s.duplicateReport = s.enterQuiet := by
  unfold State.duplicateReport
  rw [run]

/-! ### The RS of another station -/

/-- An RS of another station is accepted wherever characters are assembled, in STRAP_FAULT too (R118, R121). -/
theorem State.judge_rs (assembles : s.assembles = true) (rs : f.post.kind = .rs)
    (peer : s.mode = .strapFault ∨ ∃ c, s.config = some c ∧ f.sender ≠ c.id) : s.judge f = .accepted := by
  by_cases fault : s.mode = .strapFault
  · unfold State.judge
    rw [fault, rs]
    rfl
  · obtain ⟨c, config, other⟩ := peer.resolve_left fault
    obtain ⟨notStraps, notSelfTest⟩ := State.assembles_iff.mp assembles
    have handles : s.mode = .listen ∨ s.mode = .run ∨ s.mode = .quiet := by
      cases mode : s.mode with
      | straps => exact absurd mode notStraps
      | selfTest => exact absurd mode notSelfTest
      | strapFault => exact absurd mode fault
      | listen => exact Or.inl rfl
      | run => exact Or.inr (Or.inl rfl)
      | quiet => exact Or.inr (Or.inr rfl)
    rw [State.judge_configured config other handles]
    unfold judgeKind
    rw [rs]

/-- An accepted RS clears LINE_STOP behind the completed frame (R124, R174). -/
theorem State.peerFrame_rs (assembles : s.assembles = true) (rs : f.post.kind = .rs)
    (peer : s.mode = .strapFault ∨ ∃ c, s.config = some c ∧ f.sender ≠ c.id) :
    ∃ m : State, State.onlyLine s m ∧ m.line.breakInProgress = s.line.breakInProgress ∧
      s.peerFrame f = State.followUp s m.resumeFrame := by
  refine ⟨s.frameComplete f.post.data, State.onlyLine_frameComplete _ s,
    State.breakInProgress_characterHanded (RawChar.ofClean f.post.data false) s, ?_⟩
  rw [State.peerFrame_accepted assembles (State.judge_rs assembles rs peer)]
  unfold State.dispatchPeer
  rw [rs]

/-! ### A cause cleared by a command -/

/-- The last cause cleared lets every district leave HALTED, and a direct start may follow (R161, R165, R170). -/
theorem State.leavesHalted_followUp_clearCause {m : State} {c : HaltCause} (unmoved : s.Unmoved m)
    (relays : m.relays = s.relays) (halted : s.halted = true) (ended : (m.clearCause c).halted = false)
    (k : District) : s.leavesHalted (State.followUp s (m.clearCause c)) k := by
  refine State.leavesHalted_followUp s ?_
  rw [State.clearCause_of_last ((State.halted_congr unmoved.halt).trans halted) ended]
  let cleared : State := { m with halt := m.halt.put c false, haltEnded := true }
  exact State.leavesHalted_of_same (s := cleared) (congrArg (fun q => PerDistrict.get q k) unmoved.districts.symm)
    (congrArg (fun q => PerDistrict.get q k) relays.symm) (State.leavesHalted_endHalt cleared k)

/-- A cause cleared while another stands moves that cause alone (R165). -/
theorem State.followUp_clearCause_of_halted {m : State} {c : HaltCause} (districts : m.districts = s.districts)
    (goesOn : (m.clearCause c).halted = true) :
    State.followUp s (m.clearCause c) = { m with halt := m.halt.put c false } := by
  have cleared := State.clearCause_of_halted c goesOn
  rw [cleared] at goesOn ⊢
  exact State.followUp_halted districts goesOn

end Sys2Proof.Machine

open Sys2Proof Sys2Proof.Machine

/-- Settles O45: the RS is accepted; a refused one leaves what the unit reads, and an effective one clears LINE_STOP. -/
theorem peerResume : Obligations.PeerResume := by
  intro s b notStraps notSelfTest peer owed
  have assembles : s.assembles = true := State.assembles_iff.mpr ⟨notStraps, notSelfTest⟩
  obtain ⟨m, same, inProgress, next⟩ := State.peerFrame_rs (f := Frame.ofBody .rs b) assembles rfl peer
  have unmoved := State.unmoved_of_onlyLine same
  have relays : m.relays = s.relays := by rw [same]
  have queue : m.queue = s.queue := by rw [same]
  refine ⟨fun refused => ?_, fun breakOver stands => ?_⟩
  · have kept : m.resumeFrame = m := by
      refine if_neg fun ⟨breakOver, stands⟩ => ?_
      rcases refused with breaks | absent
      · exact nomatch breaks.symm.trans (inProgress.symm.trans breakOver)
      · exact nomatch absent.symm.trans ((congrArg HaltCauses.lineStop unmoved.halt).symm.trans stands)
    rw [kept, State.followUp_unmoved unmoved owed] at next
    exact ⟨m, congrArg Host.Outcome.next next, same⟩
  · have clears : m.resumeFrame = m.clearCause .lineStop :=
      if_pos ⟨inProgress.trans breakOver, (congrArg HaltCauses.lineStop unmoved.halt).trans stands⟩
    have halted : s.halted = true := by
      unfold State.halted
      rw [stands, Bool.or_true, Bool.true_or]
    rw [clears] at next
    have follows := State.sameOutside_followUp s (m.clearCause .lineStop)
    have haltedAfter := State.halted_congr (State.halt_of_sameOutside follows)
    refine ⟨_, congrArg Host.Outcome.next next, ?_, ?_, fun ended k => ?_, fun goesOn => ?_⟩
    · rw [State.halt_of_sameOutside follows, State.halt_clearCause, unmoved.halt]
      rfl
    · rw [State.mode_of_sameOutside follows, State.clearCause_frame]
      exact unmoved.mode
    · exact State.leavesHalted_followUp_clearCause unmoved relays halted (haltedAfter.symm.trans ended) k
    · rw [State.followUp_clearCause_of_halted unmoved.districts (haltedAfter.symm.trans goesOn)]
      exact ⟨unmoved.districts, queue⟩

/-- Settles O49: each kind fails the test that is its own, or the mode has no use for it. -/
theorem framesDiscarded : Obligations.FramesDiscarded := by
  intro s b extra peer
  have discards (kind : Kind) (notRs : kind ≠ .rs)
      (refused : s.mode ≠ .strapFault → ∀ c, s.config = some c →
        judgeKind s.mode c (Frame.ofBody kind b) = .discarded) :
      Completes (Frame.ofBody kind b).command s (fun t => State.onlyLine s t) :=
    ⟨_, exec_peerFrame kind b s, State.peerFrame_discarded (State.judge_discarded peer notRs refused)⟩
  refine ⟨discards .st nofun fun _ _ _ => rfl, discards (.unknown extra) nofun fun _ _ _ => rfl,
    fun outside => ?_, fun elsewhere => ?_, fun notRun => ?_⟩
  · have refused (sound : s.mode ≠ .strapFault) (c : StationConfig) (config : s.config = some c) :
        acceptIf (b.loc.group == c.group) = .discarded := by
      obtain ⟨held, config', other⟩ := outside.resolve_left sound
      cases config.symm.trans config'
      rw [beq_false_of_ne other]
      rfl
    exact ⟨discards .fi nofun refused, discards .tr nofun refused, discards .re nofun refused,
      discards .rb nofun refused⟩
  · have untargeted (sound : s.mode ≠ .strapFault) (c : StationConfig) (config : s.config = some c) :
        targets c.id b.data = false := by
      obtain ⟨held, config', notId, notAll⟩ := elsewhere.resolve_left sound
      cases config.symm.trans config'
      unfold targets Config.IDALL
      rw [beq_false_of_ne notId, beq_false_of_ne notAll]
      rfl
    have refused (sound : s.mode ≠ .strapFault) (c : StationConfig) (config : s.config = some c) :
        acceptIf (targets c.id b.data) = .discarded := congrArg acceptIf (untargeted sound c config)
    refine ⟨discards .hd nofun refused, discards .rl nofun refused, discards .sq nofun fun sound c config => ?_⟩
    have neither : (s.mode == .run && targets c.id b.data) = false := by
      rw [untargeted sound c config, Bool.and_false]
    exact congrArg acceptIf neither
  · refine discards .sq nofun fun _ c _ => ?_
    have neither : (s.mode == .run && targets c.id b.data) = false := by
      rw [beq_false_of_ne notRun, Bool.false_and]
    exact congrArg acceptIf neither

/-- Settles O50: the report goes to station control whatever the kind; in RUN the entry to QUIET ends no halt, and at
most a direct start follows. -/
theorem duplicateReported : Obligations.DuplicateReported := by
  intro s kind b c config own owed peer
  have next := exec_peerFrame kind b s
  have reported (mode : s.mode = .listen ∨ s.mode = .run ∨ s.mode = .quiet) :=
    State.peerFrame_ownNumber (f := Frame.ofBody kind b) mode config own
  refine ⟨fun listen => ?_, fun quiet => ?_, fun run absent => ?_⟩
  · obtain ⟨m, same, reports⟩ := reported (Or.inl listen)
    have unmoved := State.unmoved_of_onlyLine same
    have noted : s.Unmoved { m with duplicateNote := true } :=
      ⟨unmoved.districts, unmoved.mode, unmoved.ramp, unmoved.halt, unmoved.config⟩
    rw [State.duplicateReport_listen (unmoved.mode.trans listen), State.followUp_unmoved noted owed] at reports
    refine ⟨_, next.trans (congrArg Host.Outcome.next reports), ?_⟩
    rw [same]
  · obtain ⟨m, same, reports⟩ := reported (Or.inr (Or.inr quiet))
    have unmoved := State.unmoved_of_onlyLine same
    rw [State.duplicateReport_quiet (unmoved.mode.trans quiet), State.followUp_unmoved unmoved owed] at reports
    exact ⟨m, next.trans (congrArg Host.Outcome.next reports), same⟩
  · obtain ⟨m, same, reports⟩ := reported (Or.inr (Or.inl run))
    have unmoved := State.unmoved_of_onlyLine same
    rw [State.duplicateReport_run (unmoved.mode.trans run)] at reports
    have entered := State.enterQuiet_of_startAbsent ((congrArg HaltCauses.start unmoved.halt).trans absent)
    have districts : m.enterQuiet.districts = s.districts := by
      rw [entered]
      exact unmoved.districts
    have starts := State.startsAtMost_directStart m.enterQuiet
    rw [State.followUp_sameQueued (State.queuedDistricts_congr districts).symm] at reports
    rw [entered] at starts reports
    have record (k : District) : m.record k = s.record k := congrArg (fun q => PerDistrict.get q k) unmoved.districts
    exact ⟨_, next.trans (congrArg Host.Outcome.next reports), State.mode_of_sameOutside starts.outside,
      starts.queue rfl, starts.alert, starts.rbDistrict rfl,
      (State.halt_of_sameOutside starts.outside).trans unmoved.halt,
      fun k notQueued => (starts.record k (by rwa [← record] at notQueued)).trans (record k)⟩

end

section
/-! PROOFS. The order of the outgoing queue (R130 to R137, R140, R141): the queue in order as one condition on its
entries two by two, which postings, withdrawals, the end of an attempt and the offer keep. -/

namespace Sys2Proof.Machine

/-! ### A queue in order -/

/-- Two entries that one queue may hold: not of one kind with one WHERE, not two RBs, and not both ON_LINE (R130,
R132). -/
def Entry.apart (a b : Entry) : Prop :=
  ¬ (a.frame.kind = b.frame.kind ∧ (a.frame.loc = b.frame.loc ∨ a.frame.kind = .rb)) ∧
  ¬ (a.isOnLine = true ∧ b.isOnLine = true)

/-- The entry a stands ahead of the entry b in a queue in order (R130 to R132). -/
def Entry.ahead (a b : Entry) : Prop := a.frame.rank < b.frame.rank ∧ a.apart b

/-- A queue in order, whatever the transmitter does (R130 to R132). -/
def InOrder (q : List Entry) : Prop := q.length ≤ Config.NQUEUE ∧ q.Pairwise Entry.ahead

theorem Entry.apart_symm {a b : Entry} (h : a.apart b) : b.apart a := by
  obtain ⟨frames, lines⟩ := h
  refine ⟨?_, fun ⟨lineB, lineA⟩ => lines ⟨lineA, lineB⟩⟩
  rintro ⟨kind, same⟩
  exact frames ⟨kind.symm, same.imp Eq.symm fun rb => kind.symm.trans rb⟩

/-- At most one entry has P just where no two have it. -/
theorem length_filter_le_one_iff {P : Entry → Bool} {q : List Entry} :
    (q.filter P).length ≤ 1 ↔ q.Pairwise (fun a b => ¬ (P a = true ∧ P b = true)) := by
  refine ⟨fun one => ?_, length_filter_le_one⟩
  induction q with
  | nil => exact List.Pairwise.nil
  | cons x rest ih =>
    refine List.pairwise_cons.mpr ⟨fun y hy ⟨hx, hP⟩ => ?_, ih ?_⟩
    · have found := List.length_pos_of_mem (List.mem_filter.mpr ⟨hy, hP⟩)
      rw [List.filter_cons_of_pos hx, List.length_cons] at one
      omega
    · exact ((List.sublist_cons_self x rest).filter P).length_le.trans one

/-- The conditions on the queue are its order, what it holds beside an IDLE transmitter, and what outside RUN. -/
theorem State.queueOk_iff {s : State} :
    s.QueueOk ↔ InOrder s.queue ∧ (s.line.tx = none → ∀ e ∈ s.queue, e.phase = .waiting) ∧
      (s.mode ≠ .run → s.queue = []) := by
  constructor
  · rintro ⟨length, sorted, distinct, oneRb, oneOnLine, idle, outside⟩
    refine ⟨⟨length, ?_⟩, idle, outside⟩
    have pairs := ((sorted.and distinct).and (length_filter_le_one_iff.mp oneRb)).and
      (length_filter_le_one_iff.mp oneOnLine)
    refine pairs.imp ?_
    rintro a b ⟨⟨⟨rank, other⟩, notRbs⟩, lines⟩
    refine ⟨rank, ?_, lines⟩
    rintro ⟨kind, loc | rb⟩
    · exact other ⟨kind, loc⟩
    · exact notRbs ⟨beq_iff_eq.mpr rb, beq_iff_eq.mpr (kind.symm.trans rb)⟩
  · rintro ⟨⟨length, pairs⟩, idle, outside⟩
    have distinct : s.queue.Pairwise (fun a b => ¬ (a.frame.kind = b.frame.kind ∧ a.frame.loc = b.frame.loc)) :=
      pairs.imp fun ⟨_, frames, _⟩ ⟨kind, loc⟩ => frames ⟨kind, Or.inl loc⟩
    refine ⟨length, pairs.imp fun h => h.1, distinct, ?_, ?_, idle, outside⟩
    · refine length_filter_le_one (pairs.imp ?_)
      rintro a b ⟨_, frames, _⟩ ⟨ha, hb⟩
      exact frames ⟨(beq_iff_eq.mp ha).trans (beq_iff_eq.mp hb).symm, Or.inr (beq_iff_eq.mp ha)⟩
    · exact length_filter_le_one (pairs.imp fun ⟨_, _, lines⟩ => lines)

/-- An empty queue is in order whatever the mode and the transmitter. -/
theorem State.queueOk_of_empty {s : State} (empty : s.queue = []) : s.QueueOk := by
  rw [State.queueOk_iff, empty]
  exact ⟨⟨Nat.zero_le _, List.Pairwise.nil⟩, fun _ => nofun, fun _ => rfl⟩

/-- A queue in order outside RUN is empty, so it is in order in every mode that it is taken into (R132). -/
theorem State.queueOk_of_outside_run {s t : State} (h : s.QueueOk) (notRun : s.mode ≠ .run)
    (queue : t.queue = s.queue) : t.QueueOk := by
  obtain ⟨_, _, outside⟩ := State.queueOk_iff.mp h
  exact State.queueOk_of_empty (queue.trans (outside notRun))

/-! ### Postings -/

/-- An entry apart from every entry of a queue in order, which has room, is added at its rank (R130, R131). -/
theorem inOrder_insertByRank {q : List Entry} {e : Entry} (h : InOrder q) (room : q.length < Config.NQUEUE)
    (apart : ∀ x ∈ q, e.apart x) : InOrder (insertByRank e q) := by
  obtain ⟨_, pairs⟩ := h
  have fresh : ∀ x ∈ q, x.frame.rank ≠ e.frame.rank := by
    intro x hx same
    obtain ⟨kind, loc⟩ := Post.rank_eq same
    exact (apart x hx).1 ⟨kind.symm, Or.inl loc.symm⟩
  have sorted := sorted_insertByRank e q (pairs.imp fun h => h.1) fresh
  have others : (insertByRank e q).Pairwise Entry.apart :=
    ((perm_insertByRank e q).pairwise_iff Entry.apart_symm).mpr
      (List.pairwise_cons.mpr ⟨apart, pairs.imp fun h => h.2⟩)
  refine ⟨?_, sorted.and others⟩
  rw [length_insertByRank]
  exact room

theorem InOrder.sublist {p q : List Entry} (h : InOrder q) (part : p.Sublist q) : InOrder p :=
  ⟨part.length_le.trans h.1, h.2.sublist part⟩

/-- Two entries of a queue in order are apart, wherever they stand. -/
theorem InOrder.apart_of_mem {q : List Entry} (h : InOrder q) {a b : Entry} (ha : a ∈ q) (hb : b ∈ q)
    (other : a ≠ b) : a.apart b := by
  have symmetric : Std.Symm Entry.apart := ⟨fun _ _ => Entry.apart_symm⟩
  exact (h.2.imp fun h => h.2).forall ha hb other

/-- An entry of the frame p is apart from every entry that p does not replace and that is not ON_LINE beside it. -/
theorem Entry.apart_of_not_replaced {p : Post} {e x : Entry} (frame : e.frame = p) (stays : p.replaces x.frame = false)
    (lines : ¬ (e.isOnLine = true ∧ x.isOnLine = true)) : e.apart x := by
  refine ⟨?_, lines⟩
  rw [frame]
  rintro ⟨kind, same⟩
  have taken := (Post.replaces_iff p x).mpr ⟨kind.symm, same.imp_left Eq.symm⟩
  exact Bool.false_ne_true (stays.symm.trans taken)

/-- A posting leaves a queue in order (R132 to R134). -/
theorem inOrder_postInto (p : Post) {q : List Entry} (h : InOrder q) : InOrder (postInto p q).queue := by
  have waits : ¬ (p.waiting.isOnLine = true) := nofun
  unfold postInto
  cases found : q.find? (fun e => p.replaces e.frame) with
  | some e =>
    have there : e ∈ q := List.mem_of_find?_eq_some found
    have taken : p.replaces e.frame = true := List.find?_some (p := fun e : Entry => p.replaces e.frame) found
    have fewer : (q.filter fun x => !p.replaces x.frame).length < q.length :=
      List.length_filter_lt_length_iff_exists.mpr ⟨e, there, by rw [taken]; decide⟩
    refine inOrder_insertByRank (h.sublist List.filter_sublist) (fewer.trans_le h.1) fun x hx => ?_
    obtain ⟨hx, kept⟩ := List.mem_filter.mp hx
    have stays : p.replaces x.frame = false := by simpa using kept
    have other : e ≠ x := by
      rintro rfl
      exact Bool.false_ne_true (stays.symm.trans taken)
    refine Entry.apart_of_not_replaced rfl stays ?_
    rw [Entry.isOnLine_replacedBy]
    exact (h.apart_of_mem there hx other).2
  | none =>
    have apart : ∀ x ∈ q, p.waiting.apart x := fun x hx =>
      Entry.apart_of_not_replaced rfl (Bool.eq_false_iff.mpr (List.find?_eq_none.mp found x hx))
        fun both => waits both.1
    dsimp only
    split
    · exact inOrder_insertByRank h ‹_› apart
    · unfold overflowPost
      cases tail : tailWaiting q with
      | none => exact h
      | some last =>
        dsimp only
        split
        · have part := sublist_dropTailWaiting q
          have shorter := length_dropTailWaiting tail
          refine inOrder_insertByRank (h.sublist part) ?_ fun x hx => apart x (part.subset hx)
          exact Nat.lt_of_lt_of_le (by omega) h.1
        · exact h

theorem State.queueOk_post (p : Post) {s : State} (h : s.QueueOk) : (s.post p).QueueOk := by
  obtain ⟨order, idle, outside⟩ := State.queueOk_iff.mp h
  rw [State.queueOk_iff, State.queue_post, State.line_post, State.mode_post]
  refine ⟨?_, fun none => State.waiting_queueWith p (idle none), fun notRun => ?_⟩
  · unfold State.queueWith
    split
    · exact inOrder_postInto p order
    · exact order
  · unfold State.queueWith
    rw [if_neg notRun]
    exact outside notRun

theorem State.queueOk_posts (posts : List Post) {s : State} (h : s.QueueOk) :
    (posts.foldl (fun s p => s.post p) s).QueueOk := by
  induction posts generalizing s with
  | nil => exact h
  | cons p rest ih => exact ih (State.queueOk_post p h)

/-! ### Withdrawals and the end of an attempt -/

/-- Removing entries, and taking entries off the line, leaves a queue in order. -/
theorem InOrder.filterMap {q : List Entry} (h : InOrder q) {f : Entry → Option Entry}
    (keeps : ∀ e x, f e = some x → x.frame = e.frame ∧ (x.isOnLine = true → e.isOnLine = true)) :
    InOrder (q.filterMap f) := by
  refine ⟨(List.length_filterMap_le f q).trans h.1, List.Pairwise.filterMap f ?_ h.2⟩
  intro a b ahead x hx y hy
  obtain ⟨frame, line⟩ := keeps a x hx
  obtain ⟨frame', line'⟩ := keeps b y hy
  obtain ⟨rank, frames, lines⟩ := ahead
  unfold Entry.ahead Entry.apart
  rw [frame, frame']
  exact ⟨rank, frames, fun both => lines ⟨line both.1, line' both.2⟩⟩

/-- A withdrawal leaves the frames of the entries, and puts none on the line (R137). -/
theorem Entry.withdrawnFor_keeps {kind : Kind} {k : District} {e x : Entry} (h : e.withdrawnFor kind k = some x) :
    x.frame = e.frame ∧ (x.isOnLine = true → e.isOnLine = true) := by
  unfold Entry.withdrawnFor at h
  split at h
  · cases phase : e.phase with
    | waiting =>
      rw [phase] at h
      cases h
    | onLine mark =>
      rw [phase] at h
      cases h
      refine ⟨rfl, fun _ => ?_⟩
      unfold Entry.isOnLine
      rw [phase]
  · cases h
    exact ⟨rfl, id⟩

/-- What the end of an attempt leaves of an entry has its frame, and waits (R136). -/
theorem Entry.settled_keeps {completed : Bool} {e x : Entry} (h : e.settled completed = some x) :
    x.frame = e.frame ∧ x.phase = .waiting := by
  unfold Entry.settled at h
  split at h
  · cases h
    exact ⟨rfl, ‹_›⟩
  · cases h
  · cases h
    exact ⟨rfl, rfl⟩
  · split at h
    · cases h
    · cases h
      exact ⟨rfl, rfl⟩

theorem State.queueOk_withdraw (kind : Kind) (k : District) {s : State} (h : s.QueueOk) :
    (s.withdraw kind k).QueueOk := by
  obtain ⟨order, idle, outside⟩ := State.queueOk_iff.mp h
  refine State.queueOk_iff.mpr ⟨order.filterMap fun _ _ => Entry.withdrawnFor_keeps,
    fun none => State.waiting_withdraw kind k (idle none), fun notRun => ?_⟩
  rw [State.withdraw_frame, outside notRun]
  rfl

/-- Once an attempt is settled the queue is in order also beside an IDLE transmitter (R130, R136). -/
theorem State.queueOk_settled (completed : Bool) (tx : Option Sending) {s : State} (h : s.QueueOk) :
    ((s.settleAttempt completed).modLine (fun l => { l with tx := tx })).QueueOk := by
  obtain ⟨order, _, outside⟩ := State.queueOk_iff.mp h
  refine State.queueOk_iff.mpr
    ⟨order.filterMap fun e x left => ?_, fun _ _ => State.settleAttempt_waiting, fun notRun => ?_⟩
  · obtain ⟨frame, waits⟩ := Entry.settled_keeps left
    refine ⟨frame, fun onLine => ?_⟩
    unfold Entry.isOnLine at onLine
    rw [waits] at onLine
    cases onLine
  · show (s.settleAttempt completed).queue = []
    rw [State.settleAttempt_frame, outside notRun]
    rfl

theorem State.queueOk_endAttempt {s : State} (h : s.QueueOk) : s.endAttempt.QueueOk := by
  unfold State.endAttempt
  split
  · exact State.queueOk_settled false none h
  · exact h

/-! ### The offer -/

/-- The nibble of the one RB does not move it past a frame of another kind (R131, R135). -/
theorem State.ahead_refreshedEntry (s : State) {a b : Entry} (h : a.ahead b) :
    (s.refreshedEntry a).ahead (s.refreshedEntry b) := by
  obtain ⟨rank, frames, lines⟩ := h
  have phase (e : Entry) : (s.refreshedEntry e).isOnLine = e.isOnLine := by
    unfold State.refreshedEntry
    split <;> rfl
  refine ⟨?_, ?_, by rwa [phase, phase]⟩
  · by_cases same : a.frame.kind = b.frame.kind
    · have notRb : a.frame.kind ≠ .rb := fun rb => frames ⟨same, Or.inr rb⟩
      rw [State.refreshedEntry_of_ne_rb notRb, State.refreshedEntry_of_ne_rb fun rb => notRb (same.trans rb)]
      exact rank
    · rw [← Post.ranksAhead_iff] at rank ⊢
      rcases rank with code | ⟨code, _⟩
      · left
        rwa [State.kind_refreshedEntry, State.kind_refreshedEntry]
      · exact absurd (Kind.code_injective code) same
  · rwa [State.kind_refreshedEntry, State.kind_refreshedEntry, State.loc_refreshedEntry, State.loc_refreshedEntry]

theorem State.inOrder_refreshedQueue {s : State} (h : InOrder s.queue) : InOrder s.refreshedQueue := by
  rw [State.refreshedQueue_eq]
  refine ⟨by rw [List.length_map]; exact h.1, List.pairwise_map.mpr (h.2.imp fun ahead => ?_)⟩
  exact s.ahead_refreshedEntry ahead

theorem State.waiting_refreshedQueue {s : State} (waiting : ∀ x ∈ s.queue, x.phase = .waiting) :
    ∀ x ∈ s.refreshedQueue, x.phase = .waiting := by
  intro x hx
  rw [State.refreshedQueue_eq] at hx
  obtain ⟨y, hy, rfl⟩ := List.mem_map.mp hx
  unfold State.refreshedEntry
  split <;> exact waiting y hy

/-- What the offer of the frame p makes of an entry (R135). -/
def Entry.offeredAs (p : Post) (e : Entry) : Entry := if e.frame = p then { e with phase := .onLine .none } else e

theorem putOnLine_eq (p : Post) (q : List Entry) : putOnLine p q = q.map (Entry.offeredAs p) := rfl

@[simp] theorem Entry.frame_offeredAs (p : Post) (e : Entry) : (e.offeredAs p).frame = e.frame := by
  unfold Entry.offeredAs
  split <;> rfl

/-- Of the entries that wait the offer puts those of its frame on the line (R135). -/
theorem Entry.frame_of_isOnLine_offeredAs {p : Post} {e : Entry} (waits : e.phase = .waiting)
    (onLine : (e.offeredAs p).isOnLine = true) : e.frame = p := by
  by_contra other
  unfold Entry.offeredAs at onLine
  rw [if_neg other, Entry.isOnLine, waits] at onLine
  cases onLine

/-- In a queue in order that waits, the offered frame alone goes ON_LINE (R130, R135). -/
theorem inOrder_putOnLine {q : List Entry} (h : InOrder q) (waiting : ∀ x ∈ q, x.phase = .waiting) (p : Post) :
    InOrder (putOnLine p q) := by
  rw [putOnLine_eq]
  refine ⟨by rw [List.length_map]; exact h.1, ?_⟩
  refine List.pairwise_map.mpr (h.2.imp_of_mem fun {a b} ha hb ahead => ?_)
  obtain ⟨rank, frames, _⟩ := ahead
  unfold Entry.ahead Entry.apart
  rw [Entry.frame_offeredAs, Entry.frame_offeredAs]
  refine ⟨rank, frames, fun ⟨lineA, lineB⟩ => ?_⟩
  have frameA := Entry.frame_of_isOnLine_offeredAs (waiting a ha) lineA
  have frameB := Entry.frame_of_isOnLine_offeredAs (waiting b hb) lineB
  have same : a.frame = b.frame := frameA.trans frameB.symm
  exact frames ⟨congrArg Post.kind same, Or.inl (congrArg Post.loc same)⟩

/-- A contention attempt keeps the queue in order: it is made by an IDLE transmitter in RUN (R103, R130, R135). -/
theorem State.queueOk_attempt {s : State} (h : s.QueueOk) : s.attempt.QueueOk := by
  cases may : s.mayAttempt with
  | false =>
    rw [State.attempt_barred may]
    exact h
  | true =>
    obtain ⟨run, none, _⟩ := s.mayAttempt_iff.mp may
    obtain ⟨order, idle, _⟩ := State.queueOk_iff.mp h
    have refreshed := State.inOrder_refreshedQueue order
    have waits := State.waiting_refreshedQueue (idle none)
    cases offers : offered s.eligible s.refreshedQueue with
    | none =>
      rw [State.attempt_passes may offers]
      exact State.queueOk_iff.mpr ⟨refreshed, fun _ => waits, fun notRun => absurd run notRun⟩
    | some e =>
      rw [State.attempt_offers may offers]
      have order := inOrder_putOnLine refreshed waits e.frame
      exact State.queueOk_iff.mpr ⟨order, nofun, fun notRun => absurd run notRun⟩

end Sys2Proof.Machine

end

section
/-! PROOFS. The order of the queue through the moves of a district, the ramp list unit and the halts (03, 04, 08, 09):
beside what the queue is not read of, a move withdraws what the state left takes along, and posts. -/

namespace Sys2Proof.Machine

variable {s t : State}

/-! ### What the invariant rests on -/

/-- The order of the queue is read of the queue, the frame in flight and the mode alone. -/
theorem State.queueOk_congr (h : s.QueueOk) (queue : t.queue = s.queue) (tx : t.line.tx = s.line.tx)
    (mode : t.mode = s.mode) : t.QueueOk := by
  unfold State.QueueOk
  rw [queue, tx, mode]
  exact h

/-- Where a condition holds the state moves on, and else it stays. -/
theorem State.queueOk_ite {p : Prop} [Decidable p] (h : s.QueueOk) (moved : p → t.QueueOk) :
    (if p then t else s).QueueOk := by
  split
  · exact moved ‹p›
  · exact h

/-- What every district's step keeps, the four steps keep. -/
theorem State.queueOk_eachDistrict {f : District → State → State}
    (keeps : ∀ k {s : State}, s.QueueOk → (f k s).QueueOk) (h : s.QueueOk) : (s.eachDistrict f).QueueOk :=
  keeps 3 (keeps 2 (keeps 1 (keeps 0 h)))

/-! ### Leaving a state -/

/-- Leaving QUEUED withdraws the RB and leaving CONTEND the FI (R52, R76, R137). -/
theorem State.queueOk_depart (k : District) (h : s.QueueOk) : (s.depart k).QueueOk := by
  unfold State.depart
  cases (s.record k).state with
  | queued => exact State.queueOk_withdraw .rb k h
  | contend => exact State.queueOk_withdraw .fi k h
  | ramping | halted | dark | live | cooling | probing | switching | locked => exact h

theorem State.queueOk_moveOff (k : District) (f : DistrictRecord → DistrictRecord) (h : s.QueueOk) :
    (s.moveOff k f).QueueOk := State.queueOk_depart k h

/-! ### The moves of a district (03, 04) -/

theorem State.queueOk_enterLocked (k : District) (h : s.QueueOk) : (s.enterLocked k).QueueOk :=
  State.queueOk_congr (State.queueOk_moveOff k DistrictRecord.toLocked h) rfl rfl rfl

theorem State.queueOk_lockForRelay (k : District) (h : s.QueueOk) : (s.lockForRelay k).QueueOk :=
  State.queueOk_post _ (State.queueOk_enterLocked k (s := s.modRecord k _) h)

theorem State.queueOk_enterProbing (k : District) (h : s.QueueOk) : (s.enterProbing k).QueueOk :=
  State.queueOk_ite (State.queueOk_moveOff k _ h) fun _ =>
    State.queueOk_lockForRelay k (State.queueOk_moveOff k DistrictRecord.toProbing h)

theorem State.queueOk_failWith (k : District) (fault : FaultKind) (n : Nat) (window : Bool) (h : s.QueueOk) :
    (s.failWith k fault n window).QueueOk := by
  have marked : (s.modRecord k fun d => { d with lastFault := fault, n := n }).QueueOk := h
  unfold State.failWith
  dsimp only
  split
  · exact State.queueOk_post _ (State.queueOk_enterLocked k marked)
  · exact State.queueOk_post _ (State.queueOk_moveOff k _ marked)

theorem State.queueOk_pardonAtTrip (k : District) (h : s.QueueOk) : (s.pardonAtTrip k).QueueOk :=
  State.queueOk_ite h fun _ => h

theorem State.queueOk_pardonOnIntent (k : District) (h : s.QueueOk) : (s.pardonOnIntent k).QueueOk :=
  State.queueOk_ite h fun _ => h

theorem State.queueOk_tripLive (k : District) (fault : FaultKind) (h : s.QueueOk) : (s.tripLive k fault).QueueOk :=
  State.queueOk_pardonAtTrip k (State.queueOk_failWith k _ _ _ h)

theorem State.queueOk_tripRamp (k : District) (fault : FaultKind) (h : s.QueueOk) : (s.tripRamp k fault).QueueOk :=
  State.queueOk_pardonAtTrip k (State.queueOk_failWith k _ _ _ h)

theorem State.queueOk_enterSwitching (k : District) (h : s.QueueOk) : (s.enterSwitching k).QueueOk :=
  State.queueOk_moveOff k DistrictRecord.toSwitching h

theorem State.queueOk_enterContend (k : District) (origin : Origin) (h : s.QueueOk) :
    (s.enterContend k origin).QueueOk := by
  have cut : (s.contendCut k origin).QueueOk :=
    State.queueOk_ite (State.queueOk_moveOff k _ h) fun _ => State.queueOk_post _ (State.queueOk_moveOff k _ h)
  by_cases quiet : s.mode = .quiet
  · rw [State.enterContend_in_quiet quiet]
    exact State.queueOk_enterSwitching k cut
  · rw [State.enterContend_outside_quiet quiet]
    exact State.queueOk_post _ cut

theorem State.queueOk_exitByOrigin (k : District) (watch : WatchKind) (h : s.QueueOk) :
    (s.exitByOrigin k watch).QueueOk := by
  unfold State.exitByOrigin
  cases (s.record k).origin with
  | live | ramp => exact State.queueOk_moveOff k _ h
  | probe => exact State.queueOk_enterProbing k h

/-- A district that hears an intent flips, yields or is pardoned (R73 to R75, R87). -/
theorem State.queueOk_districtHearsIntent (own : Option District) (k : District) (h : s.QueueOk) :
    (State.districtHearsIntent own k s).QueueOk := by
  have heard : (s.hearIntentInContend k).QueueOk :=
    State.queueOk_ite h fun _ => State.queueOk_exitByOrigin k .yield (s := s.modRecord k _) h
  unfold State.districtHearsIntent
  split
  · exact State.queueOk_enterSwitching k h
  · split
    · exact State.queueOk_pardonOnIntent k h
    · exact State.queueOk_pardonOnIntent k heard

theorem State.queueOk_leaveHalted (k : District) (h : s.QueueOk) : (s.leaveHalted k).QueueOk := by
  refine State.queueOk_ite h fun _ => ?_
  cases (s.record k).returnClass with
  | queue | cool | dark => exact State.queueOk_moveOff k _ h
  | locked => exact State.queueOk_enterLocked k h
  | probe => exact State.queueOk_enterProbing k h

theorem State.queueOk_enterHalted (k : District) (h : s.QueueOk) : (s.enterHalted k).QueueOk := by
  have moved := State.queueOk_moveOff k DistrictRecord.toHalted h
  rcases State.enterHalted_cases k s with ⟨_, stays⟩ | ⟨_, _, enters⟩ | ⟨_, cut⟩
  · rwa [stays]
  · rwa [enters]
  · rw [cut]
    exact State.queueOk_post _ moved

theorem State.queueOk_settlePending (k : District) (cls : ReturnClass) (h : s.QueueOk) :
    (s.settlePending k cls).QueueOk := by
  unfold State.settlePending
  dsimp only
  split
  · exact h
  · exact State.queueOk_leaveHalted k (s := s.modRecord k _) h

theorem State.queueOk_confirmSwitching (k : District) (h : s.QueueOk) : (s.confirmSwitching k).QueueOk := by
  have counted : (s.modRelay k Relay.countFlip).QueueOk := h
  unfold State.confirmSwitching
  dsimp only
  split
  · exact State.queueOk_moveOff k DistrictRecord.toDark (s := (s.modRelay k Relay.countFlip).modRecord k _) counted
  · split
    · exact State.queueOk_failWith k _ _ _ (s := (s.modRelay k Relay.countFlip).modRelay k _) counted
    · exact State.queueOk_exitByOrigin k .flip (s := (s.modRelay k Relay.countFlip).modRecord k _) counted

/-- The confirm timer that runs out locks a SWITCHING district, and settles a pending one (R81, R168). -/
theorem State.queueOk_confirmRunsOut (k : District) (h : s.QueueOk) : (s.confirmRunsOut k).QueueOk := by
  unfold State.confirmRunsOut
  dsimp only
  split
  · exact State.queueOk_lockForRelay k (s := s.modRelay k _) h
  · exact State.queueOk_ite h fun _ =>
      State.queueOk_settlePending k .locked (s := ((s.modRelay k _).modRecord k _).setAlert) h

theorem State.queueOk_relayFault (k : District) (h : s.QueueOk) : (s.relayFault k).QueueOk := by
  unfold State.relayFault
  dsimp only
  cases (s.record k).state with
  | locked | switching => exact h
  | halted =>
    dsimp only
    split <;> exact h
  | live | ramping | probing | cooling | queued | contend | dark => exact State.queueOk_lockForRelay k h

/-- A reading confirms a changeover, is no fault, or is one (R79, R85, R168). -/
theorem State.queueOk_judgeReading (k : District) (h : s.QueueOk) : (s.judgeReading k).QueueOk := by
  unfold State.judgeReading
  dsimp only
  split
  · exact State.queueOk_ite h fun _ => State.queueOk_confirmSwitching k h
  · split
    · exact State.queueOk_ite h fun _ =>
        State.queueOk_settlePending k _ (s := (s.modRelay k Relay.countFlip).modRecord k _) h
    · exact State.queueOk_ite h fun _ => State.queueOk_relayFault k h

theorem State.queueOk_cnfDelivered (k : District) (level : Level) (h : s.QueueOk) :
    (s.cnfDelivered k level).QueueOk := by
  refine State.queueOk_ite h fun _ => ?_
  dsimp only
  split
  · exact h
  · exact State.queueOk_judgeReading k (s := s.modRelay k _) h

theorem State.queueOk_release (k : District) (h : s.QueueOk) : (s.release k).QueueOk := by
  have released : (s.modRecord k fun d => { d with n := 0 }).QueueOk := h
  unfold State.release
  dsimp only
  split
  · split
    · exact State.queueOk_moveOff k _ released
    · exact State.queueOk_enterProbing k released
  · exact State.queueOk_ite h fun _ => h

theorem State.queueOk_holdSet (k : District) (h : s.QueueOk) : (s.holdSet k).QueueOk := by
  have dark (f : DistrictRecord → DistrictRecord) : ((s.modRecord k f).enterDark k).QueueOk :=
    State.queueOk_moveOff k _ (s := s.modRecord k f) h
  unfold State.holdSet
  dsimp only
  cases (s.record k).state with
  | halted | switching | dark => exact h
  | ramping => exact State.queueOk_post _ (dark _)
  | live | cooling | probing | queued | contend | locked => exact dark _

theorem State.queueOk_holdClear (k : District) (h : s.QueueOk) : (s.holdClear k).QueueOk := by
  have cleared : (s.modRecord k fun d => { d with hold := false }).QueueOk := h
  refine State.queueOk_ite h fun _ => ?_
  split
  · exact State.queueOk_enterProbing k (s := (s.modRecord k fun d => { d with hold := false }).modRecord k _) cleared
  · exact State.queueOk_ite cleared fun _ => cleared

theorem State.queueOk_completeRamp (k : District) (h : s.QueueOk) : (s.completeRamp k).QueueOk :=
  State.queueOk_post _ (s := (s.depart k).modRecord k _) (State.queueOk_depart k h)

theorem State.queueOk_startRamp (k : District) (h : s.QueueOk) : (s.startRamp k).QueueOk :=
  State.queueOk_moveOff k DistrictRecord.toRamping h

/-! ### Samples (01, 02) -/

theorem State.queueOk_detectLive (k : District) (det : Detection) (h : s.QueueOk) : (s.detectLive k det).QueueOk := by
  unfold State.detectLive
  cases det with
  | hard =>
    dsimp only
    split
    · exact State.queueOk_enterContend k _ h
    · exact State.queueOk_tripLive k _ h
  | overload => exact State.queueOk_tripLive k _ h
  | early => exact State.queueOk_enterContend k _ h
  | inrush => exact h

theorem State.queueOk_detectRamping (k : District) (det : Detection) (h : s.QueueOk) :
    (s.detectRamping k det).QueueOk := by
  unfold State.detectRamping
  cases det with
  | hard =>
    dsimp only
    split
    · exact State.queueOk_enterContend k _ h
    · exact State.queueOk_tripRamp k _ h
  | inrush => exact State.queueOk_tripRamp k _ (s := s.startHoldoff) h
  | overload | early => exact h

theorem State.queueOk_probeVerdict (k : District) (v : Verdict) (h : s.QueueOk) : (s.probeVerdict k v).QueueOk := by
  unfold State.probeVerdict
  cases v with
  | clear => exact State.queueOk_moveOff k _ h
  | short =>
    dsimp only
    split
    · exact State.queueOk_enterContend k _ (s := s.modRecord k _) h
    · exact State.queueOk_failWith k _ _ _ h

/-- A sample moves the queue where it ends in a detection or a verdict (R22 to R27, R32 to R34). -/
theorem State.queueOk_treatSample (k : District) (l : Nat) (c : Code) (h : s.QueueOk) :
    (s.treatSample k l c).QueueOk := by
  have measured (e : Engine) : (s.setEngine k e).QueueOk := h
  unfold State.treatSample
  cases (s.record k).state with
  | live =>
    dsimp only [State.sampleLive]
    split
    · exact State.queueOk_detectLive k _ (measured _)
    · exact measured _
  | ramping =>
    dsimp only [State.sampleRamping]
    split
    · exact State.queueOk_detectRamping k _ (measured _)
    · exact measured _
  | probing =>
    refine State.queueOk_ite h fun _ => ?_
    unfold State.sampleProbe
    split
    · exact h
    · split
      · exact measured _
      · exact State.queueOk_probeVerdict k _ h
  | halted | dark | cooling | queued | contend | switching | locked => exact h

/-! ### The ramp list unit and the halts (08, 09) -/

theorem State.queueOk_chooseAgain (h : s.QueueOk) : s.chooseAgain.QueueOk := by
  refine State.queueOk_ite h fun _ => ?_
  dsimp only
  split
  · exact h
  · split
    · exact h
    · exact State.queueOk_post _ (s := (s.modRamp fun r => { r with chosen := s.choice }).modRamp _) h

theorem State.queueOk_directStart (h : s.QueueOk) : s.directStart.QueueOk := by
  refine State.queueOk_ite h fun _ => ?_
  split
  · exact State.queueOk_startRamp _ h
  · exact h

theorem State.queueOk_followUp (before : State) (h : s.QueueOk) : (State.followUp before s).QueueOk := by
  unfold State.followUp
  dsimp only
  split
  · exact State.queueOk_directStart h
  · exact State.queueOk_directStart (State.queueOk_chooseAgain h)

theorem State.queueOk_endHalt (h : s.QueueOk) : s.endHalt.QueueOk :=
  State.queueOk_eachDistrict (fun k _ => State.queueOk_leaveHalted k) h

theorem State.queueOk_beginHalt (h : s.QueueOk) : s.beginHalt.QueueOk :=
  State.queueOk_eachDistrict (fun k _ => State.queueOk_enterHalted k) h

/-- The setting of LINE_STOP withdraws a pending RS, and a halt that begins posts what R57 has (R165, R172). -/
theorem State.queueOk_setCause (c : HaltCause) (h : s.QueueOk) : (s.setCause c).QueueOk := by
  have marked : (s.causeSet c).QueueOk := by
    cases c with
    | lineStop => exact State.queueOk_withdraw .rs 0 h
    | start | supply => exact h
  cases halted : s.halted with
  | true =>
    rw [State.setCause_of_halted c halted]
    exact marked
  | false =>
    rw [State.setCause_of_running c halted]
    exact State.queueOk_beginHalt marked

theorem State.queueOk_clearCause (c : HaltCause) (h : s.QueueOk) : (s.clearCause c).QueueOk :=
  State.queueOk_ite (s := { s with halt := s.halt.put c false }) h fun _ =>
    State.queueOk_endHalt (s := { s with halt := s.halt.put c false, haltEnded := true }) h

/-- The entry to QUIET empties the queue, and a halt that it ends posts nothing that the queue takes (R132, R140,
R189). -/
theorem State.queueOk_enterQuiet (s : State) : s.enterQuiet.QueueOk := by
  unfold State.enterQuiet
  dsimp only
  split
  · exact State.queueOk_endHalt (State.queueOk_of_empty rfl)
  · exact State.queueOk_of_empty rfl

end Sys2Proof.Machine

end

section
/-! PROOFS. The order of the queue along every command, the clock's microsecond and the step (R130 to R132, R140,
R141). -/

namespace Sys2Proof.Machine

variable {s t : State}

/-! ### The transmitter through the operations of the line (05) -/

theorem State.tx_edgeShown (s : State) : s.edgeShown.line.tx = s.line.tx := by
  unfold State.edgeShown
  split <;> exact State.tx_showLine .low s

theorem State.tx_startRecheck (level : Level) (s : State) : (s.startRecheck level).line.tx = s.line.tx := by
  have checked : (s.recheckShown level).line.tx = s.line.tx := by
    unfold State.recheckShown
    dsimp only
    split <;> exact State.tx_showLine level s
  have shown : (if s.mode = .selfTest then s else s.recheckShown level).line.tx = s.line.tx := by
    split
    · rfl
    · exact checked
  unfold State.startRecheck
  dsimp only
  split <;> exact shown

/-- What moves the line interface alone, and not the transmitter, keeps the queue in order. -/
theorem State.queueOk_of_sameOutsideLine (same : State.sameOutsideLine s t) (tx : t.line.tx = s.line.tx)
    (h : s.QueueOk) : t.QueueOk :=
  State.queueOk_congr h ((congrArg State.queue same).trans rfl) tx ((congrArg State.mode same).trans rfl)

theorem State.queueOk_modLine (f : LineInterface → LineInterface) (tx : (f s.line).tx = s.line.tx) (h : s.QueueOk) :
    (s.modLine f).QueueOk := State.queueOk_congr h rfl tx rfl

theorem State.queueOk_showLine (level : Level) (h : s.QueueOk) : (s.showLine level).QueueOk :=
  State.queueOk_of_sameOutsideLine (State.sameOutsideLine_showLine level s) (State.tx_showLine level s) h

theorem State.queueOk_releaseDriver (h : s.QueueOk) : s.releaseDriver.QueueOk :=
  State.queueOk_of_sameOutsideLine (State.sameOutsideLine_releaseDriver s) (State.releaseDriver_tx_rx s).1 h

theorem State.queueOk_edgeTaken (idle : Nat) (h : s.QueueOk) : (s.edgeTaken idle).QueueOk :=
  State.queueOk_of_sameOutsideLine (State.sameOutsideLine_edgeTaken idle s) (State.tx_idle_edgeTaken idle s).1 h

theorem State.queueOk_edgeShown (h : s.QueueOk) : s.edgeShown.QueueOk :=
  State.queueOk_of_sameOutsideLine
    (State.sameOutsideLine_trans (State.sameOutsideLine_showLine .low s) (State.sameOutsideLine_modLine _ _))
    (State.tx_edgeShown s) h

theorem State.queueOk_characterHanded (raw : RawChar) (h : s.QueueOk) : (s.characterHanded raw).QueueOk :=
  State.queueOk_of_sameOutsideLine (State.sameOutsideLine_characterHanded raw s) (State.tx_characterHanded raw s) h

theorem State.queueOk_frameComplete (data : Byte) (h : s.QueueOk) : (s.frameComplete data).QueueOk :=
  State.queueOk_characterHanded (RawChar.ofClean data false) h

/-! ### The ends of timers -/

theorem State.queueOk_rampCompletes (k : District) (h : s.QueueOk) : (s.rampCompletes k).QueueOk :=
  State.queueOk_ite h fun _ => State.queueOk_followUp s (State.queueOk_completeRamp k h)

theorem State.queueOk_rampAdvances (k : District) (h : s.QueueOk) : (s.rampAdvances k).QueueOk := by
  refine State.queueOk_ite h fun _ => ?_
  split
  · exact h
  · exact State.queueOk_rampCompletes k h

/-! ### The peer line (05) -/

theorem State.queueOk_gapError (h : s.QueueOk) : s.gapError.QueueOk := by
  unfold State.gapError
  split <;> exact h

theorem State.queueOk_idleGap (h : s.QueueOk) : s.idleGap.QueueOk := by
  have idle := State.queueOk_modLine LineInterface.idleNow rfl (State.queueOk_showLine .high h)
  unfold State.idleGap
  split
  · exact h
  · exact State.queueOk_attempt (State.queueOk_gapError idle)

theorem State.queueOk_idleBoundary (h : s.QueueOk) : s.idleBoundary.QueueOk := by
  have counted : (s.modLine fun l => { l with bitLeft := Config.tBIT }).QueueOk := h
  exact State.queueOk_ite counted fun _ => State.queueOk_attempt counted

theorem State.queueOk_joinEdge (idle : Nat) (h : s.QueueOk) : (s.joinEdge idle).QueueOk := by
  have shown := State.queueOk_edgeShown h
  exact State.queueOk_edgeTaken idle (State.queueOk_ite shown fun _ => State.queueOk_attempt shown)

theorem State.queueOk_arbitrationLost (h : s.QueueOk) : s.arbitrationLost.QueueOk := by
  have lost := State.queueOk_showLine .low (State.queueOk_endAttempt h)
  refine State.queueOk_ite h fun _ => ?_
  dsimp only
  split <;> exact lost

theorem State.queueOk_driverFault (h : s.QueueOk) : s.driverFault.QueueOk :=
  State.queueOk_ite h fun _ => State.queueOk_followUp s (State.queueOk_enterQuiet _)

theorem State.queueOk_breakDetected (h : s.QueueOk) : s.breakDetected.QueueOk := by
  have shown : s.breakShown.QueueOk :=
    State.queueOk_modLine _ rfl (State.queueOk_showLine .low (State.queueOk_endAttempt h))
  have taken : s.breakTaken.QueueOk := State.queueOk_congr shown rfl rfl rfl
  rw [State.breakDetected_eq]
  exact State.queueOk_followUp s (State.queueOk_setCause .lineStop taken)

theorem State.queueOk_breakEnds (h : s.QueueOk) : s.breakEnds.QueueOk :=
  State.queueOk_modLine _ rfl (State.queueOk_showLine .high h)

theorem State.queueOk_stopAssertedNow (h : s.QueueOk) : s.stopAssertedNow.QueueOk := by
  have dropped : s.dropLastCharacter.QueueOk := State.queueOk_ite h fun _ => h
  have driven : s.startBreakDriver.QueueOk := State.queueOk_endAttempt dropped
  exact State.queueOk_setCause .lineStop driven

theorem State.queueOk_driveMinimumEnd (h : s.QueueOk) : s.driveMinimumEnd.QueueOk := by
  unfold State.driveMinimumEnd
  cases s.line.driver with
  | minimum ran =>
    dsimp only
    split
    · exact h
    · exact State.queueOk_releaseDriver h
  | held | off => exact h

/-! ### The local inputs (01 1.6) and the samples (01, 02) -/

theorem State.queueOk_setQualifier (pin : InputPin) (q : Qualifier) (h : s.QueueOk) :
    (s.setQualifier pin q).QueueOk := by
  cases pin <;> exact h

theorem State.queueOk_stopReleased (h : s.QueueOk) : s.stopReleased.QueueOk :=
  State.queueOk_ite h fun _ => State.queueOk_releaseDriver h

theorem State.queueOk_resumePressed (h : s.QueueOk) : s.resumePressed.QueueOk :=
  State.queueOk_ite h fun _ => State.queueOk_post _ (State.queueOk_clearCause .lineStop h)

theorem State.queueOk_clearAlert (h : s.QueueOk) : s.clearAlert.QueueOk :=
  State.queueOk_ite h fun _ => h

theorem State.queueOk_releasePressed (h : s.QueueOk) : s.releasePressed.QueueOk := by
  have released : (s.eachDistrict State.release).QueueOk :=
    State.queueOk_eachDistrict (fun k _ => State.queueOk_release k) h
  have cleared := State.queueOk_clearAlert released
  unfold State.releasePressed
  cases s.mode with
  | straps | selfTest => exact h
  | listen | run | quiet | strapFault =>
    dsimp only
    exact cleared

theorem State.queueOk_deliver (pin : InputPin) (before : Option Level) (level : Level) (h : s.QueueOk) :
    (s.deliver pin before level).QueueOk := by
  unfold State.deliver
  cases pin with
  | stop =>
    dsimp only
    split
    · exact State.queueOk_stopAssertedNow h
    · exact State.queueOk_stopReleased h
  | resume => exact State.queueOk_ite h fun _ => State.queueOk_resumePressed h
  | release => exact State.queueOk_ite h fun _ => State.queueOk_releasePressed h
  | cnf k => exact State.queueOk_cnfDelivered k level h

theorem State.queueOk_debounceExpiry (pin : InputPin) (h : s.QueueOk) : (s.debounceExpiry pin).QueueOk :=
  State.queueOk_ite h fun _ =>
    State.queueOk_followUp s (State.queueOk_deliver pin _ _ (State.queueOk_setQualifier pin _ h))

theorem State.queueOk_currentSample (k : District) (code : Code) (h : s.QueueOk) :
    (s.currentSample k code).QueueOk := by
  have taken :
      ({ s with isenPins := s.isenPins.set k code, converter := s.converter.handedOn k.val } : State).QueueOk := h
  unfold State.currentSample
  split
  · exact h
  · dsimp only
    split
    · exact State.queueOk_followUp s (State.queueOk_treatSample k _ code taken)
    · exact taken

theorem State.queueOk_supplySample (v : Code) (h : s.QueueOk) : (s.supplySample v).QueueOk := by
  have taken (m : SupplyMonitor) : (s.supplyTaken v m).QueueOk := h
  unfold State.supplySample
  split
  · exact h
  · dsimp only
    split
    · exact State.queueOk_followUp s (State.queueOk_setCause .supply (taken _))
    · split
      · exact State.queueOk_followUp s (State.queueOk_clearCause .supply (taken _))
      · exact taken _

/-! ### Frames (06) -/

theorem State.queueOk_intentOfGroup (own : Option District) (h : s.QueueOk) : (s.intentOfGroup own).QueueOk :=
  State.queueOk_eachDistrict (fun k _ => State.queueOk_districtHearsIntent own k) (s := s.heardIntent) h

theorem State.queueOk_addressed (loc : Where) {f : District → State → State}
    (keeps : ∀ k {s : State}, s.QueueOk → (f k s).QueueOk) (h : s.QueueOk) : (s.addressed loc f).QueueOk := by
  unfold State.addressed
  split
  · exact State.queueOk_eachDistrict keeps h
  · exact keeps _ h

theorem State.queueOk_dispatchPeer (f : Frame) (h : s.QueueOk) : (s.dispatchPeer f).QueueOk := by
  unfold State.dispatchPeer
  cases f.post.kind <;> dsimp only
  case fi => exact State.queueOk_intentOfGroup none h
  case tr => split <;> exact h
  case rs => exact State.queueOk_ite h fun _ => State.queueOk_clearCause .lineStop h
  case hd =>
    split
    · exact State.queueOk_addressed _ (fun k _ => State.queueOk_holdSet k) h
    · exact State.queueOk_addressed _ (fun k _ => State.queueOk_holdClear k) h
  case rl => exact State.queueOk_addressed _ (fun k _ => State.queueOk_release k) h
  case sq => exact State.queueOk_posts _ h
  all_goals exact h

theorem State.queueOk_duplicateReport (h : s.QueueOk) : s.duplicateReport.QueueOk := by
  unfold State.duplicateReport
  split
  · exact State.queueOk_enterQuiet s
  all_goals exact h

theorem State.queueOk_peerFrame (f : Frame) (h : s.QueueOk) : (s.peerFrame f).QueueOk := by
  have done := State.queueOk_frameComplete f.post.data h
  refine State.queueOk_ite h fun _ => ?_
  dsimp only
  cases s.judge f with
  | discarded => exact done
  | duplicate => exact State.queueOk_followUp s (State.queueOk_duplicateReport done)
  | accepted => exact State.queueOk_followUp s (State.queueOk_dispatchPeer f done)

/-- The re-check of an own RB starts the ramp, whose RB is withdrawn, or posts an RE (R158, R159). -/
theorem State.queueOk_recheck (k : District) (h : s.QueueOk) : (s.recheck k).QueueOk := by
  unfold State.recheck
  dsimp only
  split
  · exact State.queueOk_startRamp k (s := s.modRamp _) h
  · exact State.queueOk_post _ (s := s.modRamp _) h

theorem State.queueOk_dispatchOwn (f : Frame) (h : s.QueueOk) : (s.dispatchOwn f).QueueOk := by
  unfold State.dispatchOwn
  cases f.post.kind with
  | fi => exact State.queueOk_intentOfGroup _ h
  | rb => exact State.queueOk_recheck _ h
  | tr => exact State.queueOk_ite h fun _ => h
  | re | rs | st | hd | rl | sq | unknown _ => exact h

/-- A completion settles the attempt before its copy is dispatched (R107, R136, R138). -/
theorem State.queueOk_ownCompletion (f : Frame) (h : s.QueueOk) : (s.ownCompletion f).QueueOk := by
  have idle := State.queueOk_settled true none h
  have freed : (if s.sentAll then (s.settleAttempt true).modLine (fun l => { l with tx := none })
      else ((s.settleAttempt true).modLine (fun l => { l with tx := none })).showLine .high).QueueOk := by
    split
    · exact idle
    · exact State.queueOk_showLine .high idle
  have done := State.queueOk_dispatchOwn f (State.queueOk_frameComplete f.post.data freed)
  unfold State.ownCompletion
  dsimp only
  split
  · exact State.queueOk_directStart (State.queueOk_chooseAgain done)
  · exact State.queueOk_followUp s done

theorem State.queueOk_completeInFlight (about : Kind → Bool) (h : s.QueueOk) :
    (s.completeInFlight about).QueueOk := by
  unfold State.completeInFlight
  split
  · exact State.queueOk_ite h fun _ => State.queueOk_ownCompletion _ h
  · exact h

theorem State.queueOk_takeData (head station loc data : Byte) (h : s.QueueOk) :
    (s.takeData head station loc data).QueueOk :=
  State.queueOk_ite (State.queueOk_peerFrame _ h) fun _ => State.queueOk_ownCompletion _ h

theorem State.queueOk_takeClean (data : Byte) (mark : Bool) (h : s.QueueOk) : (s.takeClean data mark).QueueOk := by
  have handed := State.queueOk_characterHanded (RawChar.ofClean data mark) h
  unfold State.takeClean
  dsimp only
  split
  · exact handed
  · split
    · exact handed
    · split
      · exact handed
      · exact handed
      · exact State.queueOk_takeData _ _ _ data h
      · exact handed

theorem State.queueOk_selfTestHanded (raw : RawChar) (h : s.QueueOk) : (s.selfTestHanded raw).QueueOk := by
  have handed := State.queueOk_characterHanded raw h
  unfold State.selfTestHanded
  cases s.config with
  | some c => exact State.queueOk_ite handed fun _ => handed
  | none => exact handed

theorem State.queueOk_characterArrives (raw : RawChar) (h : s.QueueOk) : (s.characterArrives raw).QueueOk := by
  have handed := State.queueOk_characterHanded raw h
  have assembled : (if raw.status = .clean then s.takeClean raw.data raw.mark
      else (s.characterHanded raw).discardAssembly).QueueOk := by
    split
    · exact State.queueOk_takeClean _ _ h
    · exact handed
  unfold State.characterArrives
  cases s.mode with
  | straps => exact handed
  | selfTest => exact State.queueOk_selfTestHanded raw h
  | listen | run | quiet | strapFault => exact assembled

/-! ### Start-up (10) -/

theorem State.queueOk_configureDistrict (c : StationConfig) (k : District) (h : s.QueueOk) :
    (State.configureDistrict c k s).QueueOk := by
  unfold State.configureDistrict
  dsimp only
  split
  · split <;> exact h
  · exact h

/-- An accepted configuration leads from STRAPS to SELFTEST, where the queue is empty too (R132, R183). -/
theorem State.queueOk_takeConfig (c : StationConfig) (straps : s.mode = .straps) (h : s.QueueOk) :
    (s.takeConfig c).QueueOk := by
  have configured := State.queueOk_eachDistrict (fun k _ => State.queueOk_configureDistrict c k)
    (s := { s with config := some c }) h
  have outside := State.sameOutside_eachDistrict (State.onlyDistrict_configureDistrict c) { s with config := some c }
  have mode := (State.mode_of_sameOutside outside).trans straps
  exact State.queueOk_of_outside_run configured (by rw [mode]; decide) rfl

theorem State.queueOk_enterStrapFault (straps : s.mode = .straps) (h : s.QueueOk) : s.enterStrapFault.QueueOk :=
  State.queueOk_of_outside_run h (by rw [straps]; decide) rfl

theorem State.queueOk_decodeNow (straps : s.mode = .straps) (h : s.QueueOk) : s.decodeNow.QueueOk := by
  unfold State.decodeNow
  cases decodeStraps s.readings with
  | some c => exact State.queueOk_takeConfig c (s := { s with converter := .scan 0 0 }) straps h
  | none => exact State.queueOk_enterStrapFault (s := { s with converter := .scan 0 0 }) straps h

theorem State.queueOk_strapReading (strap : Fin 6) (round : Fin 4) (code : Code) (h : s.QueueOk) :
    (s.strapReading strap round code).QueueOk := by
  refine State.queueOk_ite h fun straps => ?_
  dsimp only
  split
  · exact State.queueOk_decodeNow straps h
  · exact h

/-- SELFTEST ends with an empty queue, as it began (R132, R187). -/
theorem State.queueOk_endSelfTest (selfTest : s.mode = .selfTest) (h : s.QueueOk) : s.endSelfTest.QueueOk :=
  State.queueOk_of_outside_run h (by rw [selfTest]; decide) rfl

/-- RUN is entered with an empty queue (R132, R141, R188), and QUIET empties it (R189). -/
theorem State.queueOk_endListen (listens : s.mode = .listen) (h : s.QueueOk) : s.endListen.QueueOk := by
  have enters : ({ s with listen := none, mode := .run } : State).QueueOk :=
    State.queueOk_of_outside_run h (by rw [listens]; decide) rfl
  unfold State.endListen
  dsimp only
  split
  · exact State.queueOk_followUp _ (State.queueOk_enterQuiet _)
  · exact State.queueOk_chooseAgain (State.queueOk_clearCause .start enters)

/-! ### Every command, the clock and the step -/

/-- Every command keeps the queue in order, each by its own meaning. -/
theorem exec_keeps_queueOk (c : Instr) (h : s.QueueOk) (next : exec c s = .next t) : t.QueueOk := by
  cases c
  all_goals cases Host.Outcome.next.inj next
  case reset => exact State.queueOk_of_empty rfl
  case strapReading strap round code => exact State.queueOk_strapReading strap round code h
  case currentSample k code => exact State.queueOk_currentSample k code h
  case supplySample v => exact State.queueOk_supplySample v h
  case probePulseStart k => exact State.queueOk_ite h fun _ => h
  case rawInputChange pin level => exact State.queueOk_setQualifier pin _ h
  case debounceExpiry pin => exact State.queueOk_debounceExpiry pin h
  case breakDriveMinimumEnd => exact State.queueOk_driveMinimumEnd h
  case coolingExpiry k => exact State.queueOk_ite h fun _ => State.queueOk_enterProbing k (s := s.modRecord k _) h
  case settleWindowExpiry k => exact State.queueOk_ite h fun _ => h
  case rampKAdvance k => exact State.queueOk_rampAdvances k h
  case rampCompletion k => exact State.queueOk_rampCompletes k h
  case contendTimeout k => exact State.queueOk_ite h fun _ => State.queueOk_enterSwitching k h
  case confirmTimeout k => exact State.queueOk_confirmRunsOut k h
  case flipWatchEnd k => exact State.queueOk_ite h fun _ => h
  case yieldWatchEnd k => exact State.queueOk_ite h fun _ => h
  case chatterWindowExpiry k => exact State.queueOk_ite h fun _ => h
  case peerEntryExpiry station k => exact State.queueOk_directStart (s := s.removePeerEntry station k) h
  case floorExpiry => exact State.queueOk_directStart (s := s.modRamp _) h
  case holdoffEnd => exact State.queueOk_directStart (s := s.modRamp _) h
  case pardonWindowEnd | millisecondTick | lampPhaseAdvance => exact h
  case selftestCharacter raw => exact State.queueOk_ite h fun _ => State.queueOk_selfTestHanded raw h
  case endOfSelftest => exact State.queueOk_ite h fun selfTest => State.queueOk_endSelfTest selfTest h
  case endOfListen => exact State.queueOk_ite h fun listens => State.queueOk_endListen listens h
  case characterError raw => exact State.queueOk_characterArrives raw h
  case shortError head => exact State.queueOk_characterArrives _ h
  case cleanCharacter data mark => exact State.queueOk_characterArrives _ h
  case idleGap => exact State.queueOk_idleGap h
  case idleBoundaryAttempt => exact State.queueOk_idleBoundary h
  case join idle => exact State.queueOk_joinEdge _ h
  case arbitrationLoss => exact State.queueOk_arbitrationLost h
  case driverFault => exact State.queueOk_driverFault h
  case breakDetected => exact State.queueOk_breakDetected h
  case breakEnd => exact State.queueOk_breakEnds h
  case lineFallingEdge idle => exact State.queueOk_edgeTaken _ (State.queueOk_edgeShown h)
  case startRecheck level =>
    have same := State.sameOutsideLine_startRecheck level s
    exact State.queueOk_of_sameOutsideLine same (State.tx_startRecheck level s) h
  case ownFiCompletion | ownRbCompletion | ownTrCompletion | ownFrameCompletion =>
    exact State.queueOk_completeInFlight _ h
  all_goals exact State.queueOk_peerFrame _ h

/-- The transmitter comes to rest by the passing of time in SELFTEST alone (R185). -/
theorem State.txAdvance_eq_none (rests : s.txAdvance = none) : s.line.tx = none ∨ s.mode = .selfTest := by
  unfold State.txAdvance at rests
  cases sending : s.line.tx with
  | none => exact Or.inl rfl
  | some x =>
    rw [sending] at rests
    dsimp only at rests
    split at rests
    · rename_i ended
      exact Or.inr ended.1
    · cases rests

/-- A microsecond moves no entry of the queue. -/
theorem State.queueOk_advance (h : s.QueueOk) : s.advance.QueueOk := by
  obtain ⟨order, idle, outside⟩ := State.queueOk_iff.mp h
  refine State.queueOk_iff.mpr ⟨order, fun rests => ?_, outside⟩
  rcases State.txAdvance_eq_none (Option.map_eq_none_iff.mp rests) with rested | selfTest
  · exact idle rested
  · show ∀ e ∈ s.queue, e.phase = .waiting
    rw [outside (by rw [selfTest]; decide)]
    exact nofun

theorem clockStep_keeps_queueOk (h : s.QueueOk) (next : s.clockStep = .next t) : t.QueueOk := by
  unfold State.clockStep at next
  split at next
  · cases Host.Outcome.next.inj next
    exact State.queueOk_advance h
  · exact exec_keeps_queueOk _ h next
  · exact exec_keeps_queueOk _ (s := { s with tie := s.tie + 1 }) h next

end Sys2Proof.Machine

open Sys2Proof Sys2Proof.Machine

/-- Settles O55: by the command at the front of the queue of commands, or the clock, each of which keeps the outgoing
queue in order. -/
theorem stepKeepsQueueOk : Obligations.StepKeepsQueueOk := by
  intro s t h next
  unfold step at next
  split at next
  · exact clockStep_keeps_queueOk h next
  · rename_i c rest _
    exact exec_keeps_queueOk c (s := { s with pending := rest }) h next

/-- Settles O54: the queue and the ramp list are empty, every engine is cleared, and every district is HALTED with START
and SUPPLY present (R39, R113, R130, R163, R164). -/
theorem resetMeetsInvariants : Obligations.ResetMeetsInvariants := by
  have record (k : District) : State.reset.record k = DistrictRecord.reset := PerDistrict.get_all _ k
  have halt : State.reset.HaltOk := by
    refine ⟨fun _ k => ?_, nofun, by decide, rfl⟩
    rw [record]
    rfl
  have ramp : State.reset.RampListOk := by
    refine ⟨Nat.zero_le _, List.Pairwise.nil, nofun, fun k => ?_, by decide, fun _ => rfl, Nat.zero_le _⟩
    rw [record]
    exact ⟨nofun, nofun⟩
  have records : State.reset.RecordsOk := by
    intro k
    rw [record]
    decide
  have gates : State.reset.GateOk := State.gateOk_afterReset State.reset
  exact ⟨State.queueOk_of_empty rfl, halt, gates, ramp, records, fun ⟨quiet, _⟩ => nomatch quiet⟩

end

section
/-! PROOFS. The ramp list as a list (R143 to R146): what each change of it keeps, and the list after a peer RB. -/

namespace Sys2Proof.Machine

variable {id station : StationNumber} {k : District} {list : List RampEntry} {e : RampEntry} {life : Nat}

/-! ### Entries -/

theorem RampEntry.hasKey_iff : e.hasKey station k = true ↔ e.station = station ∧ e.district = k := by
  simp [RampEntry.hasKey]

/-- A peer entry alone has a life (R142). -/
theorem RampEntry.life_isSome_iff : e.life.isSome = true ↔ e.isOwn = false := by
  obtain ⟨_, _, kind⟩ := e
  cases kind <;> simp [RampEntry.life, RampEntry.isOwn]

theorem RampEntry.isOwn_of_life (h : e.life = some life) : e.isOwn = false :=
  RampEntry.life_isSome_iff.mp (by rw [h]; rfl)

/-- The entry that a peer RB adds (R145). -/
def RampEntry.heard (station : StationNumber) (k : District) : RampEntry :=
  { station := station, district := k, kind := .peer Config.tPEERms }

/-- An entry after the RB of a key that the list holds (R145). -/
def RampEntry.refreshed (station : StationNumber) (k : District) (e : RampEntry) : RampEntry :=
  if e.hasKey station k then { e with kind := .peer Config.tPEERms } else e

theorem RampEntry.refreshed_of_key (key : e.station = station ∧ e.district = k) :
    e.refreshed station k = RampEntry.heard station k := by
  obtain ⟨rfl, rfl⟩ := key
  exact if_pos (RampEntry.hasKey_iff.mpr ⟨rfl, rfl⟩)

theorem RampEntry.refreshed_of_other (other : ¬ (e.station = station ∧ e.district = k)) :
    e.refreshed station k = e := if_neg (mt RampEntry.hasKey_iff.mp other)

@[simp] theorem RampEntry.station_refreshed : (e.refreshed station k).station = e.station := by
  unfold RampEntry.refreshed
  split <;> rfl

@[simp] theorem RampEntry.district_refreshed : (e.refreshed station k).district = e.district := by
  unfold RampEntry.refreshed
  split <;> rfl

@[simp] theorem RampEntry.station_tick : e.tick.station = e.station := by
  unfold RampEntry.tick
  split <;> rfl

@[simp] theorem RampEntry.district_tick : e.tick.district = e.district := by
  unfold RampEntry.tick
  split <;> rfl

@[simp] theorem RampEntry.isOwn_tick : e.tick.isOwn = e.isOwn := by
  obtain ⟨_, _, kind⟩ := e
  cases kind <;> rfl

/-! ### The entry that a full list gives up (R146) -/

/-- The least life is that of an entry. -/
theorem exists_of_leastLife (h : leastLife list = some life) : ∃ e ∈ list, e.life = some life := by
  induction list generalizing life with
  | nil => cases h
  | cons x rest ih =>
    cases hx : x.life with
    | none =>
      rw [leastLife, hx] at h
      obtain ⟨e, mem, he⟩ := ih h
      exact ⟨e, List.mem_cons_of_mem _ mem, he⟩
    | some a =>
      cases hrest : leastLife rest with
      | none =>
        rw [leastLife, hx, hrest] at h
        exact ⟨x, List.mem_cons_self, hx.trans h⟩
      | some b =>
        rw [leastLife, hx, hrest, Option.some.injEq] at h
        rcases min_choice a b with least | least
        · exact ⟨x, List.mem_cons_self, by rw [hx, ← h, least]⟩
        · obtain ⟨e, mem, he⟩ := ih hrest
          exact ⟨e, List.mem_cons_of_mem _ mem, by rw [he, ← h, least]⟩

theorem length_dropFirstOfLife (found : ∃ e ∈ list, e.life = some life) :
    (dropFirstOfLife life list).length + 1 = list.length := by
  induction list with
  | nil => simp at found
  | cons x rest ih =>
    unfold dropFirstOfLife
    split
    · rfl
    · rename_i other
      obtain ⟨e, mem, he⟩ := found
      have mem : e ∈ rest := (List.mem_cons.mp mem).resolve_left fun same => other (same ▸ he)
      exact congrArg (· + 1) (ih ⟨e, mem, he⟩)

/-- An entry of another life stays. -/
theorem mem_dropFirstOfLife (mem : e ∈ list) (other : e.life ≠ some life) : e ∈ dropFirstOfLife life list := by
  induction list with
  | nil => cases mem
  | cons x rest ih =>
    unfold dropFirstOfLife
    rcases List.mem_cons.mp mem with rfl | mem
    · rw [if_neg other]
      exact List.mem_cons_self
    · split
      · exact mem
      · exact List.mem_cons_of_mem _ (ih mem)

/-! ### A list that fits the station -/

/-- R143, R144: no more than NLIST entries, no key twice, and ID on the own entries alone. -/
structure RampListFits (id : StationNumber) (list : List RampEntry) : Prop where
  length : list.length ≤ Config.NLIST
  keys : list.Pairwise (fun a b => ¬ (a.station = b.station ∧ a.district = b.district))
  own : ∀ e ∈ list, (e.isOwn = true ↔ e.station = id)

theorem rampListFits_nil (id : StationNumber) : RampListFits id [] :=
  ⟨Nat.zero_le _, List.Pairwise.nil, nofun⟩

theorem RampListFits.sublist {part : List RampEntry} (fits : RampListFits id list) (sub : part.Sublist list) :
    RampListFits id part :=
  ⟨sub.length_le.trans fits.length, fits.keys.sublist sub, fun e mem => fits.own e (sub.subset mem)⟩

theorem RampListFits.append (fits : RampListFits id list) (room : list.length < Config.NLIST)
    (fresh : ∀ x ∈ list, ¬ (x.station = e.station ∧ x.district = e.district))
    (own : e.isOwn = true ↔ e.station = id) : RampListFits id (list ++ [e]) := by
  refine ⟨?_, List.pairwise_append.mpr ⟨fits.keys, List.pairwise_singleton _ _, ?_⟩, ?_⟩
  · rw [List.length_append]
    exact room
  · intro x mem y last
    rw [List.mem_singleton.mp last]
    exact fresh x mem
  · intro x mem
    rcases List.mem_append.mp mem with mem | last
    · exact fits.own x mem
    · rw [List.mem_singleton.mp last]
      exact own

theorem RampListFits.map {f : RampEntry → RampEntry} (fits : RampListFits id list)
    (station : ∀ e, (f e).station = e.station) (district : ∀ e, (f e).district = e.district)
    (own : ∀ e ∈ list, (f e).isOwn = e.isOwn) : RampListFits id (list.map f) := by
  refine ⟨by rw [List.length_map]; exact fits.length, List.pairwise_map.mpr ?_, ?_⟩
  · refine fits.keys.imp fun {a b} apart => ?_
    rw [station, station, district, district]
    exact apart
  · intro e mem
    obtain ⟨x, there, rfl⟩ := List.mem_map.mp mem
    rw [own x there, station]
    exact fits.own x there

/-- The own entries are of four districts at most, so that a full list holds a peer entry (R144, R146). -/
theorem RampListFits.exists_peer (fits : RampListFits id list) (full : Config.NLIST ≤ list.length) :
    ∃ e ∈ list, e.isOwn = false := by
  by_contra none
  have own (e : RampEntry) (mem : e ∈ list) : e.station = id :=
    (fits.own e mem).mp (Bool.of_not_eq_false fun peer => none ⟨e, mem, peer⟩)
  have distinct : (list.map RampEntry.district).Nodup := by
    refine List.pairwise_map.mpr (fits.keys.imp_of_mem fun {a b} memA memB apart same => ?_)
    exact apart ⟨(own a memA).trans (own b memB).symm, same⟩
  have few := distinct.length_le_card
  rw [List.length_map, Fintype.card_fin] at few
  exact absurd (full.trans few) (by decide)

/-! ### The list after a peer RB (R145, R146) -/

/-- A key that the list holds is refreshed, a new one is added, and in a full list it takes the place of the peer entry
with the least life. -/
theorem recordPeerRamp_cases (fits : RampListFits id list) (station : StationNumber) (k : District) :
    ((∃ e ∈ list, e.station = station ∧ e.district = k) ∧
      recordPeerRamp station k list = list.map (RampEntry.refreshed station k)) ∨
    (∀ e ∈ list, ¬ (e.station = station ∧ e.district = k)) ∧
      (list.length < Config.NLIST ∧ recordPeerRamp station k list = list ++ [RampEntry.heard station k] ∨
        list.length = Config.NLIST ∧ ∃ life, leastLife list = some life ∧
          recordPeerRamp station k list = dropFirstOfLife life list ++ [RampEntry.heard station k]) := by
  have known : list.any (fun e => e.hasKey station k) = true ↔ ∃ e ∈ list, e.station = station ∧ e.district = k := by
    simp only [List.any_eq_true, RampEntry.hasKey_iff]
  unfold recordPeerRamp
  dsimp only
  by_cases held : ∃ e ∈ list, e.station = station ∧ e.district = k
  · rw [if_pos (known.mpr held)]
    exact Or.inl ⟨held, rfl⟩
  · rw [if_neg (mt known.mp held)]
    refine Or.inr ⟨fun e mem key => held ⟨e, mem, key⟩, ?_⟩
    by_cases room : list.length < Config.NLIST
    · rw [if_pos room]
      exact Or.inl ⟨room, rfl⟩
    · have full := Nat.le_of_not_lt room
      obtain ⟨peer, mem, isPeer⟩ := fits.exists_peer full
      obtain ⟨life, least⟩ := Option.isSome_iff_exists.mp
        (leastLife_isSome mem (RampEntry.life_isSome_iff.mpr isPeer))
      rw [if_neg room, least]
      exact Or.inr ⟨Nat.le_antisymm fits.length full, life, rfl, rfl⟩

/-- A peer RB leaves a list that fits. -/
theorem RampListFits.afterPeerRamp (fits : RampListFits id list) (peer : station ≠ id) (k : District) :
    RampListFits id (recordPeerRamp station k list) := by
  have heard : (RampEntry.heard station k).isOwn = true ↔ (RampEntry.heard station k).station = id :=
    ⟨nofun, fun same => absurd same peer⟩
  rcases recordPeerRamp_cases fits station k with ⟨_, is⟩ | ⟨new, ⟨room, is⟩ | ⟨_, life, least, is⟩⟩ <;> rw [is]
  · refine fits.map (fun _ => RampEntry.station_refreshed) (fun _ => RampEntry.district_refreshed) fun e mem => ?_
    by_cases key : e.station = station ∧ e.district = k
    · rw [RampEntry.refreshed_of_key key]
      exact (Bool.eq_false_iff.mpr fun own => peer (key.1.symm.trans ((fits.own e mem).mp own))).symm
    · rw [RampEntry.refreshed_of_other key]
  · exact fits.append room new heard
  · have sub := sublist_dropFirstOfLife life list
    have shorter := length_dropFirstOfLife (exists_of_leastLife least)
    have length := fits.length
    exact (fits.sublist sub).append (by omega) (fun e mem => new e (sub.subset mem)) heard

/-- A peer RB moves no own entry. -/
theorem mem_recordPeerRamp_of_own (fits : RampListFits id list) (peer : station ≠ id) (k : District)
    (own : e.isOwn = true) : e ∈ recordPeerRamp station k list ↔ e ∈ list := by
  have notHeard : e ≠ RampEntry.heard station k := fun same => by
    rw [same] at own
    cases own
  rcases recordPeerRamp_cases fits station k with ⟨_, is⟩ | ⟨_, ⟨_, is⟩ | ⟨_, life, least, is⟩⟩ <;> rw [is]
  · rw [List.mem_map]
    constructor
    · rintro ⟨x, mem, rfl⟩
      by_cases key : x.station = station ∧ x.district = k
      · exact absurd (RampEntry.refreshed_of_key key) notHeard
      · rwa [RampEntry.refreshed_of_other key]
    · intro mem
      refine ⟨e, mem, RampEntry.refreshed_of_other fun key => peer ?_⟩
      exact key.1.symm.trans ((fits.own e mem).mp own)
  · rw [List.mem_append, List.mem_singleton, or_iff_left notHeard]
  · rw [List.mem_append, List.mem_singleton, or_iff_left notHeard]
    refine ⟨fun mem => (sublist_dropFirstOfLife life list).subset mem, fun mem => mem_dropFirstOfLife mem fun h => ?_⟩
    exact Bool.false_ne_true ((RampEntry.isOwn_of_life h).symm.trans own)

end Sys2Proof.Machine

end

section
/-! PROOFS. The ramp frames of the group (R145 to R147, R151, R152): TR and RE take a peer entry away, RB records one and
lowers the floor. -/

namespace Sys2Proof.Machine

variable {s t : State} {id station : StationNumber} {k : District} {list : List RampEntry} {e : RampEntry}

/-! ### An accepted frame -/

/-- A frame of another station that the tests on its kind accept is dispatched, and the ramp list unit follows (R117,
R124). -/
theorem exec_acceptedFrame {kind : Kind} {body : FrameBody} {c : StationConfig}
    (mode : s.mode = .listen ∨ s.mode = .run ∨ s.mode = .quiet) (config : s.config = some c) (peer : body.sender ≠ c.id)
    (accepted : judgeKind s.mode c (Frame.ofBody kind body) = .accepted) :
    ∃ (l : LineInterface) (h : Handler), exec (Frame.ofBody kind body).command s =
      .next (State.followUp s (({ s with line := l, handler := h } : State).dispatchPeer (Frame.ofBody kind body))) := by
  have assembles : s.assembles = true := by
    rcases mode with h | h | h <;> simp [State.assembles, h]
  have judged : s.judge (Frame.ofBody kind body) = .accepted :=
    (State.judge_configured (f := Frame.ofBody kind body) config peer mode).trans accepted
  obtain ⟨l, h, done⟩ := State.frameComplete_eq body.data s
  refine ⟨l, h, (exec_peerFrame kind body s).trans (congrArg Host.Outcome.next ?_)⟩
  rw [State.peerFrame_accepted assembles judged]
  exact congrArg (fun u => State.followUp s (State.dispatchPeer (Frame.ofBody kind body) u)) done

theorem acceptIf_group {a b : Fin 16} (group : a = b) : acceptIf (a == b) = .accepted := if_pos (beq_iff_eq.mpr group)

/-- Outside QUIET nothing follows a command that moves no district (R155, R161). -/
theorem State.followUp_outside_quiet (districts : t.districts = s.districts) (notQuiet : t.mode ≠ .quiet) :
    State.followUp s t = t :=
  (State.followUp_sameQueued (State.queuedDistricts_congr districts).symm).trans (State.directStart_outside_quiet notQuiet)

/-! ### TR and RE (R147, R152) -/

theorem tellsInrush_iff {data : Byte} : tellsInrush data = true ↔ data.toNat / 16 = 3 := beq_iff_eq

/-- A TR with fault INRUSH starts the hold-off beside the removal (R147, R152). -/
theorem State.dispatchPeer_tr (s : State) {f : Frame} (tr : f.post.kind = .tr) :
    s.dispatchPeer f =
      if f.post.data.toNat / 16 = 3 then (s.removePeerEntry f.sender f.post.loc.district).startHoldoff
      else s.removePeerEntry f.sender f.post.loc.district := by
  unfold State.dispatchPeer
  rw [tr]
  exact if_congr tellsInrush_iff rfl rfl

/-! ### RB (R145, R146, R151) -/

/-- The floor of a peer RB, and its key in the list (R145, R151). -/
def State.hearsRamp (f : Frame) (s : State) : State :=
  s.modRamp (fun r => { r with floor := floorAfter f.post.data r.floor,
                               list := recordPeerRamp f.sender f.post.loc.district r.list })

theorem State.dispatchPeer_rb (s : State) {f : Frame} (rb : f.post.kind = .rb) : s.dispatchPeer f = s.hearsRamp f := by
  unfold State.dispatchPeer
  rw [rb]
  rfl

/-- A peer RB makes no list shorter. -/
theorem RampListFits.length_le_recordPeerRamp (fits : RampListFits id list) (station : StationNumber) (k : District) :
    list.length ≤ (recordPeerRamp station k list).length := by
  rcases recordPeerRamp_cases fits station k with ⟨_, is⟩ | ⟨_, ⟨_, is⟩ | ⟨_, life, least, is⟩⟩ <;> rw [is]
  · rw [List.length_map]
  · rw [List.length_append]
    exact Nat.le_add_right _ _
  · rw [List.length_append]
    exact (length_dropFirstOfLife (exists_of_leastLife least)).ge

/-- The floor after an RB is present, and no higher than one that was (R151). -/
theorem floorAfter_le (data : Byte) (floor : Option Floor) :
    ∃ after, floorAfter data floor = some after ∧ ∀ f, floor = some f → after.value ≤ f.value := by
  cases floor with
  | none => exact ⟨_, rfl, nofun⟩
  | some f =>
    by_cases lower : clampBudget data ≤ f.value
    · exact ⟨_, if_pos lower, fun _ same => Option.some.inj same ▸ lower⟩
    · exact ⟨f, if_neg lower, fun _ same => Option.some.inj same ▸ Nat.le_refl _⟩

/-- A peer RB never raises Beff (R143, R151). -/
theorem State.budgetInForce_hearsRamp (f : Frame) (s : State) : (s.hearsRamp f).budgetInForce ≤ s.budgetInForce := by
  obtain ⟨after, is, lower⟩ := floorAfter_le f.post.data s.ramp.floor
  have heard : (s.hearsRamp f).ramp.floor = some after := is
  unfold State.budgetInForce
  rw [heard]
  cases floor : s.ramp.floor with
  | none => exact Nat.min_le_left _ _
  | some before => exact min_le_min_left s.budget (lower before floor)

/-- Neither a longer list nor a lower Beff makes a district eligible (R154). -/
theorem State.eligible_of_crowded (eligible : t.eligible = true) (longer : s.ramp.list.length ≤ t.ramp.list.length)
    (lower : t.budgetInForce ≤ s.budgetInForce) (idle : t.ramp.holdoff = none → s.ramp.holdoff = none)
    (halt : t.halt = s.halt) : s.eligible = true := by
  unfold State.eligible State.roomForRamp at eligible ⊢
  rw [State.halted_congr halt] at eligible
  simp only [Bool.and_eq_true, decide_eq_true_eq, beq_iff_eq] at eligible ⊢
  obtain ⟨⟨room, none⟩, running⟩ := eligible
  exact ⟨⟨by omega, idle none⟩, running⟩

/-- Where every district keeps its state and none becomes eligible, no start comes to be owed (R161). -/
theorem State.noStartOwed_of_states (owed : s.NoStartOwed) (mode : t.mode = s.mode)
    (state : ∀ j : District, (t.record j).state = (s.record j).state)
    (eligible : t.eligible = true → s.eligible = true) : t.NoStartOwed := by
  have ramping : t.anyDistrict .ramping = s.anyDistrict .ramping := by
    unfold State.anyDistrict
    simp only [state]
  have queued : t.queuedDistricts = s.queuedDistricts := by
    unfold State.queuedDistricts
    simp only [state]
  rintro ⟨quiet, fits, noneRamps, waiting⟩
  exact owed ⟨mode.symm.trans quiet, eligible fits, ramping.symm.trans noneRamps, queued ▸ waiting⟩

/-- Where no start was owed, a peer RB owes none (R161). -/
theorem State.noStartOwed_hearsRamp (f : Frame) (fits : RampListFits id s.ramp.list) (owed : s.NoStartOwed) :
    (s.hearsRamp f).NoStartOwed :=
  State.noStartOwed_of_states owed rfl (fun _ => rfl) fun eligible =>
    State.eligible_of_crowded eligible (fits.length_le_recordPeerRamp _ _) (State.budgetInForce_hearsRamp f s) (fun none => none)
      rfl

/-! ### What the list holds after a peer RB -/

theorem heard_mem_recordPeerRamp (fits : RampListFits id list) (station : StationNumber) (k : District) :
    RampEntry.heard station k ∈ recordPeerRamp station k list := by
  rcases recordPeerRamp_cases fits station k with ⟨⟨e, mem, key⟩, is⟩ | ⟨_, ⟨_, is⟩ | ⟨_, life, least, is⟩⟩ <;> rw [is]
  · exact List.mem_map.mpr ⟨e, mem, RampEntry.refreshed_of_key key⟩
  · exact List.mem_append_right _ List.mem_cons_self
  · exact List.mem_append_right _ List.mem_cons_self

/-- The key has its fresh entry alone, and every other entry was there. -/
theorem mem_of_recordPeerRamp (fits : RampListFits id list) (mem : e ∈ recordPeerRamp station k list) :
    e = RampEntry.heard station k ∨ ¬ (e.station = station ∧ e.district = k) ∧ e ∈ list := by
  rcases recordPeerRamp_cases fits station k with ⟨_, is⟩ | ⟨new, ⟨_, is⟩ | ⟨_, life, least, is⟩⟩ <;> rw [is] at mem
  · obtain ⟨x, there, rfl⟩ := List.mem_map.mp mem
    by_cases key : x.station = station ∧ x.district = k
    · exact Or.inl (RampEntry.refreshed_of_key key)
    · rw [RampEntry.refreshed_of_other key]
      exact Or.inr ⟨key, there⟩
  all_goals rcases List.mem_append.mp mem with there | last
  · exact Or.inr ⟨new e there, there⟩
  · exact Or.inl (List.mem_singleton.mp last)
  · have there := (sublist_dropFirstOfLife life list).subset there
    exact Or.inr ⟨new e there, there⟩
  · exact Or.inl (List.mem_singleton.mp last)

/-- With room, or with its key known, a peer RB leaves every other entry (R145). -/
theorem mem_recordPeerRamp_of_other (fits : RampListFits id list)
    (room : list.length < Config.NLIST ∨ ∃ e ∈ list, e.station = station ∧ e.district = k) (mem : e ∈ list)
    (other : ¬ (e.station = station ∧ e.district = k)) : e ∈ recordPeerRamp station k list := by
  rcases recordPeerRamp_cases fits station k with ⟨_, is⟩ | ⟨new, ⟨_, is⟩ | ⟨full, _⟩⟩
  · rw [is]
    exact List.mem_map.mpr ⟨e, mem, RampEntry.refreshed_of_other other⟩
  · rw [is]
    exact List.mem_append_left _ mem
  · rcases room with room | ⟨x, there, key⟩
    · exact absurd full room.ne
    · exact absurd key (new x there)

/-- In a full list the peer RB of a new key takes the place of a peer entry with the least life (R146). -/
theorem recordPeerRamp_replaces (fits : RampListFits id list) (full : list.length = Config.NLIST)
    (new : ∀ e ∈ list, ¬ (e.station = station ∧ e.district = k)) :
    (recordPeerRamp station k list).length = Config.NLIST ∧
      ∀ e ∈ list, e ∉ recordPeerRamp station k list →
        e.isOwn = false ∧ ∀ x ∈ list, x.isOwn = false → e.life.getD 0 ≤ x.life.getD 0 := by
  rcases recordPeerRamp_cases fits station k with ⟨⟨e, mem, key⟩, _⟩ | ⟨_, ⟨room, _⟩ | ⟨_, life, least, is⟩⟩
  · exact absurd key (new e mem)
  · exact absurd full room.ne
  · have shorter := length_dropFirstOfLife (exists_of_leastLife least)
    rw [is]
    refine ⟨by rw [List.length_append, List.length_singleton, shorter, full], fun e mem gone => ?_⟩
    have given : e.life = some life := by
      by_contra other
      exact gone (List.mem_append_left _ (mem_dropFirstOfLife mem other))
    refine ⟨RampEntry.isOwn_of_life given, fun x there isPeer => ?_⟩
    obtain ⟨l, lives⟩ := Option.isSome_iff_exists.mp (RampEntry.life_isSome_iff.mpr isPeer)
    rw [given, lives]
    exact leastLife_le least x there l lives

/-- The list of a station that keeps the invariant fits its number. -/
theorem State.rampListFits_of_ok (ok : s.RampListOk) : RampListFits s.stationId s.ramp.list := by
  obtain ⟨length, keys, own, _⟩ := ok
  exact ⟨length, keys, own⟩

end Sys2Proof.Machine

open Sys2Proof Sys2Proof.Machine

/-- Settles O43: the peer entry of the key goes, the hold-off starts for INRUSH, and outside QUIET nothing follows. -/
theorem peerTripAndRampEnd : Obligations.PeerTripAndRampEnd := by
  intro s body c mode config peer group
  have handles : s.mode = .listen ∨ s.mode = .run ∨ s.mode = .quiet := mode.imp_right Or.inl
  have notQuiet : s.mode ≠ .quiet := by
    rcases mode with h | h <;> rw [h] <;> decide
  have stays {t : State} (districts : t.districts = s.districts) (same : t.mode = s.mode) : State.followUp s t = t :=
    State.followUp_outside_quiet districts (by rwa [same])
  constructor
  · obtain ⟨l, h, next⟩ := exec_acceptedFrame (kind := .re) handles config peer (acceptIf_group group)
    refine ⟨_, next.trans (congrArg Host.Outcome.next (stays rfl rfl)), fun e mem => ?_, rfl⟩
    exact State.mem_removePeerEntry (s := { s with line := l, handler := h }) mem
  · obtain ⟨l, h, next⟩ := exec_acceptedFrame (kind := .tr) handles config peer (acceptIf_group group)
    have removed (e : RampEntry) (mem : e ∈ s.ramp.list) :=
      State.mem_removePeerEntry (s := { s with line := l, handler := h }) (station := body.sender)
        (k := body.loc.district) mem
    rw [State.dispatchPeer_tr _ rfl] at next
    by_cases inrush : (Frame.ofBody .tr body).post.data.toNat / 16 = 3
    · rw [if_pos inrush] at next
      exact ⟨_, next.trans (congrArg Host.Outcome.next (stays rfl rfl)), removed, (if_pos inrush).symm, rfl⟩
    · rw [if_neg inrush] at next
      exact ⟨_, next.trans (congrArg Host.Outcome.next (stays rfl rfl)), removed, (if_neg inrush).symm, rfl⟩

/-- Settles O44: the floor and the list by their own rules, and a list that grew under a lower Beff starts no ramp. -/
theorem peerRampBegin : Obligations.PeerRampBegin := by
  intro s body c mode config peer group ok owed
  have fits := State.rampListFits_of_ok ok
  obtain ⟨l, h, next⟩ := exec_acceptedFrame (kind := .rb) mode config peer (acceptIf_group group)
  let heard : State := ({ s with line := l, handler := h } : State).hearsRamp (Frame.ofBody .rb body)
  have nothing : State.followUp s heard = heard :=
    State.followUp_settled rfl
      (State.noStartOwed_hearsRamp (s := { s with line := l, handler := h }) (Frame.ofBody .rb body) fits owed)
  rw [State.dispatchPeer_rb _ rfl, nothing] at next
  refine ⟨heard, next, rfl, ⟨⟨_, heard_mem_recordPeerRamp fits _ _, ⟨rfl, rfl⟩, rfl⟩, ?_, ?_, ?_, ?_⟩, rfl⟩
  · intro e mem key
    rcases mem_of_recordPeerRamp fits mem with rfl | ⟨other, _⟩
    · rfl
    · exact absurd key other
  · intro e mem other
    rcases mem_of_recordPeerRamp fits mem with rfl | ⟨_, there⟩
    · exact absurd ⟨rfl, rfl⟩ other
    · exact there
  · exact fun room e mem other => mem_recordPeerRamp_of_other fits room mem other
  · exact fun full new => recordPeerRamp_replaces fits full new

end

section
/-! PROOFS. The ramp list through the moves of a district, the ramp list unit and the halts (R144, R149, R150): a move
that leaves RAMPING takes its own entry away, the start of a ramp adds one, and no other move is of the list. -/

namespace Sys2Proof.Machine

variable {s t : State} {k : District} {id : StationNumber}

/-! ### What the invariant rests on -/

theorem State.hasOwnEntry_iff : s.hasOwnEntry k = true ↔ ∃ e ∈ s.ramp.list, e.isOwn = true ∧ e.district = k := by
  simp [State.hasOwnEntry]

/-- R149: the own entries are the districts that are RAMPING. -/
def State.OwnEntriesRamp (s : State) : Prop :=
  ∀ k : District, s.hasOwnEntry k = true ↔ (s.record k).state = .ramping

/-- R143, R182: a configuration is held outside STRAPS and STRAP_FAULT, nothing is listed without one, and B is at
most NLIST. -/
structure State.ListConfigured (s : State) : Prop where
  modes : s.config = none ↔ s.mode = .straps ∨ s.mode = .strapFault
  empty : s.config = none → s.ramp.list = []
  budget : s.budget ≤ Config.NLIST

theorem State.rampListOk_iff :
    s.RampListOk ↔ RampListFits s.stationId s.ramp.list ∧ s.OwnEntriesRamp ∧ s.ListConfigured :=
  ⟨fun ⟨length, keys, own, ramps, modes, empty, budget⟩ => ⟨⟨length, keys, own⟩, ramps, ⟨modes, empty, budget⟩⟩,
    fun ⟨⟨length, keys, own⟩, ramps, ⟨modes, empty, budget⟩⟩ => ⟨length, keys, own, ramps, modes, empty, budget⟩⟩

theorem State.ListConfigured.congr (h : s.ListConfigured) (config : t.config = s.config) (mode : t.mode = s.mode)
    (empty : s.ramp.list = [] → t.ramp.list = []) : t.ListConfigured := by
  refine ⟨by rw [config, mode]; exact h.modes, fun none => empty (h.empty (config.symm.trans none)), ?_⟩
  unfold State.budget
  rw [config]
  exact h.budget

/-- A change that moves neither an own entry nor a RAMPING district, and leaves a list that fits. -/
theorem State.rampListOk_of_fits (h : s.RampListOk) (fits : RampListFits s.stationId t.ramp.list)
    (own : ∀ e : RampEntry, e.isOwn = true → (e ∈ t.ramp.list ↔ e ∈ s.ramp.list))
    (ramping : ∀ j : District, (t.record j).state = .ramping ↔ (s.record j).state = .ramping)
    (config : t.config = s.config) (configured : t.ListConfigured) : t.RampListOk := by
  obtain ⟨_, ramps, _⟩ := State.rampListOk_iff.mp h
  refine State.rampListOk_iff.mpr ⟨by rwa [State.stationId_congr config], fun j => ?_, configured⟩
  rw [ramping, ← ramps, State.hasOwnEntry_iff, State.hasOwnEntry_iff]
  refine exists_congr fun e => ?_
  by_cases isOwn : e.isOwn = true
  · rw [own e isOwn]
  · simp [isOwn]

/-- What moves neither the list nor a RAMPING district keeps the invariant. -/
theorem State.rampListOk_congr (h : s.RampListOk)
    (ramping : ∀ j : District, (t.record j).state = .ramping ↔ (s.record j).state = .ramping)
    (list : t.ramp.list = s.ramp.list := by rfl) (config : t.config = s.config := by rfl)
    (mode : t.mode = s.mode := by rfl) : t.RampListOk := by
  obtain ⟨fits, _, configured⟩ := State.rampListOk_iff.mp h
  refine State.rampListOk_of_fits h (by rwa [list]) (fun e _ => by rw [list]) ramping config ?_
  exact configured.congr config mode fun empty => list.trans empty

theorem State.Steady.rampListOk (steady : s.Steady t) (h : s.RampListOk) : t.RampListOk :=
  State.rampListOk_congr h steady.ramping steady.list steady.config steady.mode

theorem State.Unmoved.rampListOk (unmoved : s.Unmoved t) (h : s.RampListOk) : t.RampListOk := unmoved.steady.rampListOk h

/-- A station without an entry in its list and without a RAMPING district. -/
theorem State.rampListOk_of_empty (configured : t.ListConfigured) (list : t.ramp.list = [])
    (noneRamps : ∀ j : District, (t.record j).state ≠ .ramping) : t.RampListOk := by
  refine State.rampListOk_iff.mpr ⟨by rw [list]; exact rampListFits_nil _, fun j => ?_, configured⟩
  rw [State.hasOwnEntry_iff, list]
  exact iff_of_false (fun ⟨_, mem, _⟩ => nomatch mem) (noneRamps j)

/-- A change of mode among those that have a configuration. -/
theorem State.rampListOk_of_mode (h : s.RampListOk) (before : s.mode ≠ .straps ∧ s.mode ≠ .strapFault)
    (after : t.mode ≠ .straps ∧ t.mode ≠ .strapFault) (districts : t.districts = s.districts := by rfl)
    (list : t.ramp.list = s.ramp.list := by rfl) (config : t.config = s.config := by rfl) : t.RampListOk := by
  obtain ⟨fits, _, configured⟩ := State.rampListOk_iff.mp h
  have configured' : t.config ≠ none := fun none =>
    (configured.modes.mp (config.symm.trans none)).elim before.1 before.2
  refine State.rampListOk_of_fits h (by rwa [list]) (fun e _ => by rw [list]) (fun j => ?_) config ?_
  · rw [show t.record j = s.record j from congrArg (fun q => PerDistrict.get q j) districts]
  · refine ⟨⟨fun none => absurd none configured', fun m => (m.elim after.1 after.2).elim⟩,
      fun none => absurd none configured', ?_⟩
    unfold State.budget
    rw [config]
    exact configured.budget

/-- Where a condition holds the state moves on, and else it stays. -/
theorem State.rampListOk_ite {p : Prop} [Decidable p] (h : s.RampListOk) (moved : p → t.RampListOk) :
    (if p then t else s).RampListOk := by
  split
  · exact moved ‹p›
  · exact h

/-- What every district's step keeps, the four steps keep. -/
theorem State.rampListOk_eachDistrict {f : District → State → State}
    (keeps : ∀ k {s : State}, s.RampListOk → (f k s).RampListOk) (h : s.RampListOk) : (s.eachDistrict f).RampListOk :=
  keeps 3 (keeps 2 (keeps 1 (keeps 0 h)))

/-! ### Leaving a state, and starting a ramp -/

theorem State.list_depart_other (notRamping : (s.record k).state ≠ .ramping) :
    (s.depart k).ramp.list = s.ramp.list := by
  unfold State.depart
  cases state : (s.record k).state with
  | ramping => exact absurd state notRamping
  | queued | contend | halted | dark | live | cooling | probing | switching | locked => rfl

/-- A district that ends its step outside RAMPING has its own entry no more, and the rest of the list stays (R149). -/
theorem State.rampListOk_departs (only : State.onlyDistrict k s t) (list : t.ramp.list = (s.depart k).ramp.list)
    (left : (t.record k).state ≠ .ramping) (h : s.RampListOk) : t.RampListOk := by
  have config := State.config_of_sameOutside only.2
  have mode := State.mode_of_sameOutside only.2
  have others {j : District} (other : j ≠ k) : t.record j = s.record j := (only.1 j other).1
  obtain ⟨fits, ramps, configured⟩ := State.rampListOk_iff.mp h
  by_cases ramping : (s.record k).state = .ramping
  · have mem (e : RampEntry) : e ∈ t.ramp.list ↔ e ∈ s.ramp.list ∧ ¬ (e.isOwn = true ∧ e.district = k) := by
      rw [list, State.list_depart_ramping ramping, List.mem_filter]
      simp [imp_iff_not_or]
    have sub : t.ramp.list.Sublist s.ramp.list := by
      rw [list, State.list_depart_ramping ramping]
      exact List.filter_sublist
    refine State.rampListOk_iff.mpr ⟨?_, fun j => ?_, configured.congr config mode fun empty => ?_⟩
    · rw [State.stationId_congr config]
      exact fits.sublist sub
    · by_cases same : j = k
      · subst same
        rw [State.hasOwnEntry_of_departed ramping list]
        exact ⟨nofun, fun after => absurd after left⟩
      · rw [others same, ← ramps, State.hasOwnEntry_iff, State.hasOwnEntry_iff]
        refine exists_congr fun e => ?_
        rw [mem]
        exact ⟨fun ⟨there, own⟩ => ⟨there.1, own⟩,
          fun ⟨there, isOwn, its⟩ => ⟨⟨there, fun gone => same (its.symm.trans gone.2)⟩, isOwn, its⟩⟩
    · exact List.sublist_nil.mp (empty ▸ sub)
  · refine State.rampListOk_congr h (fun j => ?_) (list.trans (State.list_depart_other ramping)) config mode
    by_cases same : j = k
    · rw [same]
      exact iff_of_false left ramping
    · rw [others same]

theorem State.rampListOk_moveOff (k : District) (f : DistrictRecord → DistrictRecord) (h : s.RampListOk)
    (leaves : (f (s.record k)).state ≠ .ramping := by exact nofun) : (s.moveOff k f).RampListOk :=
  State.rampListOk_departs (State.onlyDistrict_moveOff k f s) rfl (by rwa [State.record_moveOff]) h

/-- A change of a record that leaves the district in its state. -/
theorem State.steady_modRecord (k : District) (f : DistrictRecord → DistrictRecord) (s : State)
    (state : (f (s.record k)).state = (s.record k).state := by rfl) : s.Steady (s.modRecord k f) :=
  State.steady_of_rampKept (State.onlyDistrict_modRecord k f s) (State.rampKept_of_eq rfl)
    (by rw [State.record_modRecord_self, state]) (by rw [State.record_modRecord_self, state])

theorem State.rampListOk_modRecord (k : District) (f : DistrictRecord → DistrictRecord) (h : s.RampListOk)
    (state : (f (s.record k)).state = (s.record k).state := by rfl) : (s.modRecord k f).RampListOk :=
  (State.steady_modRecord k f s state).rampListOk h

theorem State.rampListOk_post (p : Post) (h : s.RampListOk) : (s.post p).RampListOk :=
  State.rampListOk_congr h (fun _ => by rw [State.record_post]) (State.list_post p s) (State.config_post p s)
    (State.mode_post p s)

/-- Room in the list is room below B, which a configuration alone gives (R143, R154). -/
theorem State.length_lt_of_room (room : s.roomForRamp = true) : s.ramp.list.length < s.budget := by
  unfold State.roomForRamp at room
  simp only [Bool.and_eq_true, decide_eq_true_eq] at room
  refine room.1.trans_le ?_
  unfold State.budgetInForce
  split
  · exact Nat.min_le_left _ _
  · exact Nat.le_refl _

theorem State.config_ne_none_of_room (room : s.roomForRamp = true) : s.config ≠ none := by
  intro none
  have below := State.length_lt_of_room room
  unfold State.budget at below
  rw [none] at below
  exact Nat.not_lt_zero _ below

/-- A QUEUED district that starts its ramp with room in the list adds its own entry, of a new key (R53, R149, R154). -/
theorem State.rampListOk_startRamp (queued : (s.record k).state = .queued) (room : s.roomForRamp = true)
    (h : s.RampListOk) : (s.startRamp k).RampListOk := by
  obtain ⟨fits, ramps, configured⟩ := State.rampListOk_iff.mp h
  obtain ⟨others, outside⟩ := State.onlyDistrict_startRamp k s
  have config := State.config_of_sameOutside outside
  have list : (s.startRamp k).ramp.list = s.ramp.list ++ [{ station := s.stationId, district := k, kind := .own }] :=
    congrArg RampUnit.list (State.startRamp_of_queued queued).2
  have notListed (x : RampEntry) (mem : x ∈ s.ramp.list) : ¬ (x.station = s.stationId ∧ x.district = k) := by
    rintro ⟨own, its⟩
    have ramping := (ramps k).mp (State.hasOwnEntry_iff.mpr ⟨x, mem, (fits.own x mem).mpr own, its⟩)
    exact nomatch queued.symm.trans ramping
  refine State.rampListOk_iff.mpr ⟨?_, fun j => ?_, ?_, ?_, ?_⟩
  · rw [list, State.stationId_congr config]
    exact fits.append ((State.length_lt_of_room room).trans_le configured.budget) notListed ⟨fun _ => rfl, fun _ => rfl⟩
  · rw [State.hasOwnEntry_iff, list]
    by_cases same : j = k
    · rw [same, State.record_startRamp]
      exact ⟨fun _ => rfl, fun _ => ⟨_, List.mem_append_right _ List.mem_cons_self, rfl, rfl⟩⟩
    · rw [(others j same).1, ← ramps, State.hasOwnEntry_iff]
      refine exists_congr fun e => ?_
      rw [List.mem_append, List.mem_singleton]
      constructor
      · rintro ⟨there | rfl, isOwn, its⟩
        · exact ⟨there, isOwn, its⟩
        · exact absurd its.symm same
      · exact fun ⟨there, own⟩ => ⟨Or.inl there, own⟩
  · rw [config, State.mode_of_sameOutside outside]
    exact configured.modes
  · exact fun none => absurd (config.symm.trans none) (State.config_ne_none_of_room room)
  · unfold State.budget
    rw [config]
    exact configured.budget

/-! ### The moves of a district (03, 04) -/

theorem State.rampListOk_enterLocked (k : District) (h : s.RampListOk) : (s.enterLocked k).RampListOk :=
  State.rampListOk_moveOff k DistrictRecord.toLocked h

theorem State.rampListOk_lockForRelay (k : District) (h : s.RampListOk) : (s.lockForRelay k).RampListOk :=
  State.rampListOk_post _ (State.rampListOk_enterLocked k (State.rampListOk_modRecord k _ h))

theorem State.rampListOk_enterProbing (k : District) (h : s.RampListOk) : (s.enterProbing k).RampListOk := by
  have moved := State.rampListOk_moveOff k DistrictRecord.toProbing h
  exact State.rampListOk_ite moved fun _ => State.rampListOk_lockForRelay k moved

theorem State.rampListOk_failWith (k : District) (fault : FaultKind) (n : Nat) (window : Bool) (h : s.RampListOk) :
    (s.failWith k fault n window).RampListOk := by
  have marked := State.rampListOk_modRecord k (fun d => { d with lastFault := fault, n := n }) h
  unfold State.failWith
  dsimp only
  split
  · exact State.rampListOk_post _ (State.rampListOk_enterLocked k marked)
  · exact State.rampListOk_post _ (State.rampListOk_moveOff k (DistrictRecord.toCooling window) marked)

theorem State.rampListOk_pardonAtTrip (k : District) (h : s.RampListOk) : (s.pardonAtTrip k).RampListOk :=
  State.rampListOk_ite h fun _ => State.rampListOk_modRecord k DistrictRecord.pardon h

theorem State.rampListOk_pardonOnIntent (k : District) (h : s.RampListOk) : (s.pardonOnIntent k).RampListOk :=
  State.rampListOk_ite h fun _ => State.rampListOk_modRecord k DistrictRecord.pardon h

theorem State.rampListOk_tripLive (k : District) (fault : FaultKind) (h : s.RampListOk) :
    (s.tripLive k fault).RampListOk := State.rampListOk_pardonAtTrip k (State.rampListOk_failWith k _ _ _ h)

theorem State.rampListOk_tripRamp (k : District) (fault : FaultKind) (h : s.RampListOk) :
    (s.tripRamp k fault).RampListOk := State.rampListOk_pardonAtTrip k (State.rampListOk_failWith k _ _ _ h)

theorem State.rampListOk_enterSwitching (k : District) (h : s.RampListOk) : (s.enterSwitching k).RampListOk :=
  State.rampListOk_moveOff k DistrictRecord.toSwitching h

theorem State.rampListOk_enterContend (k : District) (origin : Origin) (h : s.RampListOk) :
    (s.enterContend k origin).RampListOk := by
  have moved := State.rampListOk_moveOff k (DistrictRecord.toContend origin) h
  have cut : (s.contendCut k origin).RampListOk :=
    State.rampListOk_ite moved fun _ => State.rampListOk_post _ moved
  by_cases quiet : s.mode = .quiet
  · rw [State.enterContend_in_quiet quiet]
    exact State.rampListOk_enterSwitching k cut
  · rw [State.enterContend_outside_quiet quiet]
    exact State.rampListOk_post _ cut

theorem State.rampListOk_exitByOrigin (k : District) (watch : WatchKind) (h : s.RampListOk) :
    (s.exitByOrigin k watch).RampListOk := by
  unfold State.exitByOrigin
  cases (s.record k).origin with
  | live => exact State.rampListOk_moveOff k (DistrictRecord.toLive watch) h
  | ramp => exact State.rampListOk_moveOff k DistrictRecord.toQueued h
  | probe => exact State.rampListOk_enterProbing k h

/-- A district that hears an intent flips, yields or is pardoned (R73 to R75, R87). -/
theorem State.rampListOk_districtHearsIntent (own : Option District) (k : District) (h : s.RampListOk) :
    (State.districtHearsIntent own k s).RampListOk := by
  have heard : (s.hearIntentInContend k).RampListOk :=
    State.rampListOk_ite h fun _ => State.rampListOk_exitByOrigin k .yield (State.rampListOk_modRecord k _ h)
  unfold State.districtHearsIntent
  split
  · exact State.rampListOk_enterSwitching k h
  · split
    · exact State.rampListOk_pardonOnIntent k h
    · exact State.rampListOk_pardonOnIntent k heard

theorem State.rampListOk_leaveHalted (k : District) (h : s.RampListOk) : (s.leaveHalted k).RampListOk := by
  refine State.rampListOk_ite h fun _ => ?_
  cases (s.record k).returnClass with
  | queue => exact State.rampListOk_moveOff k DistrictRecord.toQueued h
  | cool => exact State.rampListOk_moveOff k DistrictRecord.toCoolingAfterHalt h
  | dark => exact State.rampListOk_moveOff k DistrictRecord.toDark h
  | locked => exact State.rampListOk_enterLocked k h
  | probe => exact State.rampListOk_enterProbing k h

theorem State.rampListOk_enterHalted (k : District) (h : s.RampListOk) : (s.enterHalted k).RampListOk := by
  have moved := State.rampListOk_moveOff k DistrictRecord.toHalted h
  rcases State.enterHalted_cases k s with ⟨_, stays⟩ | ⟨_, _, enters⟩ | ⟨_, cut⟩
  · rwa [stays]
  · rwa [enters]
  · rw [cut]
    exact State.rampListOk_post _ moved

theorem State.rampListOk_settlePending (k : District) (cls : ReturnClass) (h : s.RampListOk) :
    (s.settlePending k cls).RampListOk := by
  have settled := State.rampListOk_modRecord k (DistrictRecord.settled cls) h
  unfold State.settlePending
  dsimp only
  split
  · exact settled
  · exact State.rampListOk_leaveHalted k settled

theorem State.rampListOk_confirmSwitching (k : District) (h : s.RampListOk) : (s.confirmSwitching k).RampListOk := by
  have counted : (s.modRelay k Relay.countFlip).RampListOk := h
  unfold State.confirmSwitching
  dsimp only
  split
  · exact State.rampListOk_moveOff k DistrictRecord.toDark (State.rampListOk_modRecord k _ counted)
  · split
    · exact State.rampListOk_failWith k _ _ _ (s := (s.modRelay k Relay.countFlip).modRelay k _) counted
    · exact State.rampListOk_exitByOrigin k .flip (State.rampListOk_modRecord k _ counted)

theorem State.rampListOk_relayFault (k : District) (h : s.RampListOk) : (s.relayFault k).RampListOk := by
  unfold State.relayFault
  dsimp only
  cases (s.record k).state with
  | locked => exact State.rampListOk_modRecord k _ h
  | switching => exact h
  | halted =>
    dsimp only
    split
    · exact h
    · exact State.rampListOk_modRecord k _ h
  | live | ramping | probing | cooling | queued | contend | dark => exact State.rampListOk_lockForRelay k h

/-- A reading confirms a changeover, is no fault, or is one (R79, R85, R168). -/
theorem State.rampListOk_judgeReading (k : District) (h : s.RampListOk) : (s.judgeReading k).RampListOk := by
  unfold State.judgeReading
  dsimp only
  split
  · exact State.rampListOk_ite h fun _ => State.rampListOk_confirmSwitching k h
  · split
    · refine State.rampListOk_ite h fun _ => State.rampListOk_settlePending k _ ?_
      exact State.rampListOk_modRecord k _ (s := s.modRelay k Relay.countFlip) h
    · exact State.rampListOk_ite h fun _ => State.rampListOk_relayFault k h

theorem State.rampListOk_cnfDelivered (k : District) (level : Level) (h : s.RampListOk) :
    (s.cnfDelivered k level).RampListOk := by
  refine State.rampListOk_ite h fun _ => ?_
  dsimp only
  split
  · exact h
  · exact State.rampListOk_judgeReading k (s := s.modRelay k _) h

theorem State.rampListOk_release (k : District) (h : s.RampListOk) : (s.release k).RampListOk :=
  (State.steady_release k s).rampListOk h

theorem State.rampListOk_holdSet (k : District) (h : s.RampListOk) : (s.holdSet k).RampListOk := by
  have marked (f : DistrictRecord → DistrictRecord) (state : (f (s.record k)).state = (s.record k).state) :
      ((s.modRecord k f).enterDark k).RampListOk :=
    State.rampListOk_moveOff k DistrictRecord.toDark (State.rampListOk_modRecord k f h state)
  unfold State.holdSet
  dsimp only
  cases (s.record k).state with
  | halted | switching | dark => exact State.rampListOk_modRecord k _ h
  | ramping => exact State.rampListOk_post _ (marked _ rfl)
  | live | cooling | probing | queued | contend | locked => exact marked _ rfl

theorem State.rampListOk_holdClear (k : District) (h : s.RampListOk) : (s.holdClear k).RampListOk := by
  have cleared := State.rampListOk_modRecord k (fun d => { d with hold := false }) h
  refine State.rampListOk_ite h fun _ => ?_
  split
  · exact State.rampListOk_enterProbing k (State.rampListOk_modRecord k _ cleared)
  · exact State.rampListOk_ite cleared fun _ => State.rampListOk_modRecord k _ cleared

/-- A completed ramp leaves RAMPING for LIVE (R54, R149). -/
theorem State.rampListOk_completeRamp (k : District) (h : s.RampListOk) : (s.completeRamp k).RampListOk := by
  refine State.rampListOk_departs (State.onlyDistrict_completeRamp k s) (State.list_post _ _) ?_ h
  rw [State.record_completeRamp]
  exact nofun

/-! ### Samples (01, 02) -/

theorem State.rampListOk_detectLive (k : District) (det : Detection) (h : s.RampListOk) :
    (s.detectLive k det).RampListOk := by
  unfold State.detectLive
  cases det with
  | hard =>
    dsimp only
    split
    · exact State.rampListOk_enterContend k _ h
    · exact State.rampListOk_tripLive k _ h
  | overload => exact State.rampListOk_tripLive k _ h
  | early => exact State.rampListOk_enterContend k _ h
  | inrush => exact h

theorem State.rampListOk_detectRamping (k : District) (det : Detection) (h : s.RampListOk) :
    (s.detectRamping k det).RampListOk := by
  unfold State.detectRamping
  cases det with
  | hard =>
    dsimp only
    split
    · exact State.rampListOk_enterContend k _ h
    · exact State.rampListOk_tripRamp k _ h
  | inrush => exact State.rampListOk_tripRamp k _ (s := s.startHoldoff) h
  | overload | early => exact h

theorem State.rampListOk_probeVerdict (k : District) (v : Verdict) (h : s.RampListOk) :
    (s.probeVerdict k v).RampListOk := by
  unfold State.probeVerdict
  cases v with
  | clear => exact State.rampListOk_moveOff k DistrictRecord.toQueued h
  | short =>
    dsimp only
    split
    · exact State.rampListOk_enterContend k _ (State.rampListOk_modRecord k _ h)
    · exact State.rampListOk_failWith k _ _ _ h

/-- A sample moves the list where it ends a ramp (R25, R27, R55, R56). -/
theorem State.rampListOk_treatSample (k : District) (l : Nat) (c : Code) (h : s.RampListOk) :
    (s.treatSample k l c).RampListOk := by
  have measured (e : Engine) : (s.setEngine k e).RampListOk := h
  unfold State.treatSample
  cases (s.record k).state with
  | live =>
    dsimp only [State.sampleLive]
    split
    · exact State.rampListOk_detectLive k _ (measured _)
    · exact measured _
  | ramping =>
    dsimp only [State.sampleRamping]
    split
    · exact State.rampListOk_detectRamping k _ (measured _)
    · exact measured _
  | probing =>
    refine State.rampListOk_ite h fun _ => ?_
    unfold State.sampleProbe
    split
    · exact h
    · split
      · exact measured _
      · exact State.rampListOk_probeVerdict k _ h
  | halted | dark | cooling | queued | contend | switching | locked => exact h

/-! ### The ramp list unit (08) -/

theorem State.rampListOk_chooseAgain (h : s.RampListOk) : s.chooseAgain.RampListOk := by
  rw [State.chooseAgain_frame]
  exact h

theorem State.roomForRamp_of_eligible (eligible : s.eligible = true) : s.roomForRamp = true := by
  unfold State.eligible at eligible
  exact (Bool.and_eq_true_iff.mp eligible).1

theorem State.rampListOk_directStart (h : s.RampListOk) : s.directStart.RampListOk := by
  unfold State.directStart
  split
  · rename_i owed
    obtain ⟨_, eligible, _⟩ := owed
    split
    · rename_i j longest
      exact State.rampListOk_startRamp (longestQueued_queued longest) (State.roomForRamp_of_eligible eligible) h
    · exact h
  · exact h

theorem State.rampListOk_followUp (before : State) (h : s.RampListOk) : (State.followUp before s).RampListOk := by
  unfold State.followUp
  dsimp only
  split
  · exact State.rampListOk_directStart h
  · exact State.rampListOk_directStart (State.rampListOk_chooseAgain h)

/-- The re-check of an own RB starts the ramp of a QUEUED district with room in the list (R158, R159). -/
theorem State.rampListOk_recheck (k : District) (h : s.RampListOk) : (s.recheck k).RampListOk := by
  unfold State.recheck
  dsimp only
  split
  · rename_i passes
    exact State.rampListOk_startRamp (s := s.modRamp _) passes.1 passes.2 h
  · exact State.rampListOk_post _ (s := s.modRamp _) h

/-- A peer entry alone is taken away (R147, R148). -/
theorem State.rampListOk_removePeerEntry (station : StationNumber) (k : District) (h : s.RampListOk) :
    (s.removePeerEntry station k).RampListOk := by
  obtain ⟨fits, _, configured⟩ := State.rampListOk_iff.mp h
  have sub : (s.removePeerEntry station k).ramp.list.Sublist s.ramp.list := List.filter_sublist
  refine State.rampListOk_of_fits h (fits.sublist sub) (fun e own => ⟨fun mem => sub.subset mem, fun mem => ?_⟩)
    (fun _ => Iff.rfl) rfl (configured.congr rfl rfl fun empty => List.sublist_nil.mp (empty ▸ sub))
  exact (State.mem_removePeerEntry mem).mpr fun isPeer => nomatch own.symm.trans isPeer.1

/-- A peer RB of another station moves peer entries alone (R145, R146). -/
theorem State.rampListOk_hearsRamp {f : Frame} {c : StationConfig} (config : s.config = some c) (peer : f.sender ≠ c.id)
    (h : s.RampListOk) : (s.hearsRamp f).RampListOk := by
  obtain ⟨fits, _, configured⟩ := State.rampListOk_iff.mp h
  have other : f.sender ≠ s.stationId := by
    unfold State.stationId
    rwa [config]
  refine State.rampListOk_of_fits h (fits.afterPeerRamp other _) (fun e => mem_recordPeerRamp_of_own fits other _)
    (fun _ => Iff.rfl) rfl ⟨configured.modes, fun none => ?_, configured.budget⟩
  exact nomatch config.symm.trans none

/-! ### Halts (09) -/

theorem State.rampListOk_endHalt (h : s.RampListOk) : s.endHalt.RampListOk :=
  State.rampListOk_eachDistrict (fun k _ => State.rampListOk_leaveHalted k) h

theorem State.rampListOk_beginHalt (h : s.RampListOk) : s.beginHalt.RampListOk :=
  State.rampListOk_eachDistrict (fun k _ => State.rampListOk_enterHalted k) h

theorem State.rampListOk_clearCause (c : HaltCause) (h : s.RampListOk) : (s.clearCause c).RampListOk :=
  State.rampListOk_ite (s := { s with halt := s.halt.put c false }) h fun _ =>
    State.rampListOk_endHalt (s := { s with halt := s.halt.put c false, haltEnded := true }) h

/-- R164: a halted station has every district HALTED. -/
def State.HaltsAll (s : State) : Prop := s.halted = true → ∀ k : District, (s.record k).state = .halted

theorem State.HaltOk.haltsAll (ok : s.HaltOk) : s.HaltsAll := ok.1

theorem State.Unmoved.haltsAll (unmoved : s.Unmoved t) (halts : s.HaltsAll) : t.HaltsAll := by
  intro halted k
  rw [show t.record k = s.record k from congrArg (fun q => PerDistrict.get q k) unmoved.districts]
  exact halts ((State.halted_congr unmoved.halt).symm.trans halted) k

/-- Once a cause is set every district is HALTED: by the halt that it begins, or by the one that went on (R164,
R165). -/
theorem State.record_setCause_halted (c : HaltCause) (halts : s.HaltsAll) (k : District) :
    ((s.setCause c).record k).state = .halted := by
  cases halted : s.halted with
  | true =>
    rw [State.setCause_of_halted c halted, State.record_causeSet]
    exact halts halted k
  | false =>
    rw [State.setCause_of_running c halted]
    exact State.record_beginHalt_halted _ k

/-- The setting of LINE_STOP empties the list of a station whose districts are all HALTED after it (R150, R165). -/
theorem State.rampListOk_setLineStop (halts : s.HaltsAll) (h : s.RampListOk) : (s.setCause .lineStop).RampListOk := by
  obtain ⟨_, _, configured⟩ := State.rampListOk_iff.mp h
  have frame := State.setCause_frame .lineStop s
  have list := (State.ramp_setLineStop s).1
  refine State.rampListOk_of_empty (configured.congr ?_ ?_ fun _ => list) list fun j => ?_
  · rw [frame]
  · rw [frame]
  · rw [State.record_setCause_halted .lineStop halts]
    decide

theorem State.rampListOk_setSupply (h : s.RampListOk) : (s.setCause .supply).RampListOk := by
  have marked : (s.causeSet .supply).RampListOk := h
  cases halted : s.halted with
  | true => rwa [State.setCause_of_halted .supply halted]
  | false =>
    rw [State.setCause_of_running .supply halted]
    exact State.rampListOk_beginHalt marked

/-- The entry to QUIET leaves the list, and so does the end of a halt by it (R189). -/
theorem State.rampListOk_enterQuiet (configured : s.mode ≠ .straps ∧ s.mode ≠ .strapFault) (h : s.RampListOk) :
    s.enterQuiet.RampListOk := by
  unfold State.enterQuiet
  dsimp only
  split
  · exact State.rampListOk_endHalt (State.rampListOk_of_mode h configured ⟨nofun, nofun⟩)
  · exact State.rampListOk_of_mode h configured ⟨nofun, nofun⟩

end Sys2Proof.Machine

end

section
/-! PROOFS. The ramp list and the direct start along every command, the clock's microsecond and the step (R144, R149,
R150, R161). -/

namespace Sys2Proof.Machine

variable {s t : State} {k : District}

/-! ### The two parts of the invariant -/

/-- The ramp list is in order and no direct start is owed. -/
abbrev State.RampOk (s : State) : Prop := s.RampListOk ∧ s.NoStartOwed

theorem State.Steady.rampOk (steady : s.Steady t) (h : s.RampOk) : t.RampOk :=
  ⟨steady.rampListOk h.1, steady.noStartOwed h.2⟩

theorem State.Unmoved.rampOk (unmoved : s.Unmoved t) (h : s.RampOk) : t.RampOk := unmoved.steady.rampOk h

theorem State.noStartOwed_outside_quiet (mode : s.mode ≠ .quiet) : s.NoStartOwed := fun owed => mode owed.1

/-- Where a condition holds the state moves on, and else it stays. -/
theorem State.rampOk_ite {p : Prop} [Decidable p] (h : s.RampOk) (moved : p → t.RampOk) :
    (if p then t else s).RampOk := by
  split
  · exact moved ‹p›
  · exact h

theorem isSome_foldl_longerWait (s : State) (j : District) (l : List District) :
    (l.foldl (longerWait s) (some j)).isSome = true := by
  induction l generalizing j with
  | nil => rfl
  | cons x rest ih =>
    rw [List.foldl_cons]
    unfold longerWait
    dsimp only
    split <;> exact ih _

/-- A district that waits is found (R155, R161). -/
theorem State.noneQueued_of_longest (none : s.longestQueued = none) : s.queuedDistricts = [] := by
  cases queued : s.queuedDistricts with
  | nil => rfl
  | cons x rest =>
    have found := isSome_foldl_longerWait s x rest
    unfold State.longestQueued at none
    rw [queued, List.foldl_cons, show longerWait s Option.none x = some x from rfl] at none
    rw [none] at found
    cases found

theorem State.anyDistrict_of_state {st : DistrictState} (state : (s.record k).state = st) :
    s.anyDistrict st = true :=
  List.any_eq_true.mpr ⟨k, by fin_cases k <;> decide, beq_iff_eq.mpr state⟩

/-- After the test of the direct start none is owed: a district ramps, none may, or none waits (R161). -/
theorem State.noStartOwed_directStart (s : State) : s.directStart.NoStartOwed := by
  by_cases may : s.mode = .quiet ∧ s.eligible = true ∧ s.anyDistrict .ramping = false
  · obtain ⟨quiet, eligible, noneRamps⟩ := may
    cases longest : s.longestQueued with
    | some j =>
      rw [State.directStart_of_longest quiet eligible noneRamps longest]
      have ramps : (s.startRamp j).anyDistrict .ramping = true :=
        State.anyDistrict_of_state (k := j) (by rw [State.record_startRamp]; rfl)
      exact fun ⟨_, _, noneRamps, _⟩ => nomatch ramps.symm.trans noneRamps
    | none =>
      have settled := State.noStartOwed_of_noneQueued (State.noneQueued_of_longest longest)
      rwa [State.directStart_of_noStartOwed settled]
  · have settled : s.NoStartOwed := fun ⟨quiet, eligible, noneRamps, _⟩ => may ⟨quiet, eligible, noneRamps⟩
    rwa [State.directStart_of_noStartOwed settled]

theorem State.rampOk_directStart (h : s.RampListOk) : s.directStart.RampOk :=
  ⟨State.rampListOk_directStart h, State.noStartOwed_directStart s⟩

theorem State.rampOk_followUp (before : State) (h : s.RampListOk) : (State.followUp before s).RampOk :=
  ⟨State.rampListOk_followUp before h, State.noStartOwed_directStart _⟩

/-! ### Moves that are not followed by the test of the direct start -/

/-- A move that begins and ends outside QUEUED and RAMPING and keeps the list. -/
theorem State.steady_of_aside (only : State.onlyDistrict k s t) (kept : State.rampKept s t)
    (before : (s.record k).state ≠ .queued ∧ (s.record k).state ≠ .ramping)
    (after : (t.record k).state ≠ .queued ∧ (t.record k).state ≠ .ramping) : s.Steady t :=
  State.steady_of_rampKept only kept (iff_of_false after.1 before.1) (iff_of_false after.2 before.2)

theorem State.steady_enterProbing (queued : (s.record k).state ≠ .queued) (ramping : (s.record k).state ≠ .ramping)
    (contend : (s.record k).state ≠ .contend) : s.Steady (s.enterProbing k) := by
  refine State.steady_of_aside (State.onlyDistrict_enterProbing k s) (State.rampKept_enterProbing ramping queued contend)
    ⟨queued, ramping⟩ ?_
  rw [State.record_enterProbing]
  split <;> exact ⟨nofun, nofun⟩

theorem State.steady_lockForRelay (queued : (s.record k).state ≠ .queued) (ramping : (s.record k).state ≠ .ramping)
    (contend : (s.record k).state ≠ .contend) : s.Steady (s.lockForRelay k) := by
  have locks := State.relayLocks_lockForRelay ramping queued contend
  refine State.steady_of_aside locks.only locks.rampKept ⟨queued, ramping⟩ ?_
  rw [State.record_lockForRelay]
  exact ⟨nofun, nofun⟩

/-- The entry to SWITCHING withdraws the FI alone (R76, R78). -/
theorem State.steady_enterSwitching (contend : (s.record k).state = .contend) : s.Steady (s.enterSwitching k) := by
  refine State.steady_of_aside (State.onlyDistrict_enterSwitching k s) (State.rampKept_of_eq ?_) ?_ ?_
  · rw [State.ramp_enterSwitching, State.depart_of_contend contend]
    rfl
  · rw [contend]
    exact ⟨nofun, nofun⟩
  · rw [State.record_enterSwitching]
    exact ⟨nofun, nofun⟩

theorem State.steady_enterLocked (halted : (s.record k).state = .halted) : s.Steady (s.enterLocked k) := by
  refine State.steady_of_aside (State.onlyDistrict_enterLocked k s) (State.rampKept_of_eq ?_) ?_ ?_
  · rw [State.ramp_enterLocked, State.depart_unmoved] <;> rw [halted] <;> exact nofun
  · rw [halted]
    exact ⟨nofun, nofun⟩
  · rw [State.record_enterLocked]
    exact ⟨nofun, nofun⟩

theorem State.steady_coolingExpires (cooling : (s.record k).state = .cooling) :
    s.Steady ((s.cooled k).enterProbing k) := by
  have state : ((s.cooled k).record k).state = .cooling := by
    rw [State.record_cooled]
    exact cooling
  refine (State.steady_modRecord k (fun d => { d with cooling := 0 }) s).trans ?_
  exact State.steady_enterProbing (s := s.cooled k) (by rw [state]; exact nofun) (by rw [state]; exact nofun)
    (by rw [state]; exact nofun)

/-- The confirm timer that runs out locks a SWITCHING district, and settles a confirm-pending one (R81, R168). -/
theorem State.steady_confirmRunsOut (k : District) (s : State) : s.Steady (s.confirmRunsOut k) := by
  by_cases switching : (s.record k).state = .switching
  · rw [Host.Outcome.next.inj (exec_confirmTimeout_switching switching)]
    have stopped := (State.unmoved_setRelay s k { s.relay k with confirm := none }).steady
    refine stopped.trans (State.steady_lockForRelay ?_ ?_ ?_) <;> rw [State.record_setRelay, switching] <;> exact nofun
  · by_cases isPending : (s.record k).pendingInHalt = true
    · obtain ⟨halted, confirms⟩ := DistrictRecord.pendingInHalt_iff.mp isPending
      have stays : ((s.pendingFails k).record k).state = .halted := by
        rw [State.record_pendingFails]
        exact halted
      have fails : s.Steady (s.pendingFails k) := by
        refine State.steady_of_aside (State.onlyDistrict_pendingFails k s) (State.rampKept_of_eq rfl) ?_ ?_
        · rw [halted]
          exact ⟨nofun, nofun⟩
        · rw [stays]
          exact ⟨nofun, nofun⟩
      rw [Host.Outcome.next.inj (exec_confirmTimeout_pending halted confirms)]
      split
      · exact fails
      · exact fails.trans (State.steady_enterLocked stays)
    · have stays : s.confirmRunsOut k = s := by
        unfold State.confirmRunsOut
        dsimp only
        rw [if_neg switching, if_neg isPending]
      rw [stays]
      exact State.Steady.refl s

/-- A ramp advances, or it is complete and the next direct start is tested (R54, R161). -/
theorem State.rampOk_rampCompletes (k : District) (h : s.RampOk) : (s.rampCompletes k).RampOk :=
  State.rampOk_ite h fun _ => State.rampOk_followUp s (State.rampListOk_completeRamp k h.1)

theorem State.rampOk_rampAdvances (k : District) (h : s.RampOk) : (s.rampAdvances k).RampOk := by
  refine State.rampOk_ite h fun _ => ?_
  split
  · exact (State.steady_modRecord k (fun d => { d with k := d.k + 1, rampSub := 0 }) s).rampOk h
  · exact State.rampOk_rampCompletes k h

/-! ### The passing of time -/

theorem DistrictRecord.state_tick (d : DistrictRecord) : d.tick.state = d.state := by
  unfold DistrictRecord.tick
  split <;> rfl

theorem DistrictRecord.state_advance (d : DistrictRecord) : d.advance.state = d.state := by
  unfold DistrictRecord.advance
  cases state : d.state with
  | cooling | live | ramping | contend => rfl
  | halted | dark | probing | queued | switching | locked => exact state

theorem State.record_msTick (s : State) (k : District) : s.msTick.record k = (s.record k).tick :=
  PerDistrict.get_map DistrictRecord.tick s.districts k

theorem RampEntry.tick_of_own {e : RampEntry} (own : e.isOwn = true) : e.tick = e := by
  obtain ⟨_, _, kind⟩ := e
  cases kind with
  | own => rfl
  | peer life => cases own

/-- A tick lets the lives run down, and no entry moves (R142). -/
theorem State.rampListOk_msTick (h : s.RampListOk) : s.msTick.RampListOk := by
  obtain ⟨fits, _, configured⟩ := State.rampListOk_iff.mp h
  have list : s.msTick.ramp.list = s.ramp.list.map RampEntry.tick := rfl
  refine State.rampListOk_of_fits h ?_ (fun e own => ?_) (fun j => ?_) rfl (configured.congr rfl rfl fun empty => ?_)
  · exact fits.map (fun _ => RampEntry.station_tick) (fun _ => RampEntry.district_tick) fun _ _ => RampEntry.isOwn_tick
  · rw [list, List.mem_map]
    constructor
    · rintro ⟨x, mem, rfl⟩
      rw [RampEntry.isOwn_tick] at own
      rwa [RampEntry.tick_of_own own]
    · exact fun mem => ⟨e, mem, RampEntry.tick_of_own own⟩
  · rw [State.record_msTick, DistrictRecord.state_tick]
  · rw [list, empty]
    rfl

theorem State.budgetInForce_msTick (s : State) : s.msTick.budgetInForce = s.budgetInForce := by
  show (match s.ramp.floor.map (fun f => { f with life := f.life - 1 }) with
    | some f => min s.budget f.value
    | none => s.budget) = s.budgetInForce
  unfold State.budgetInForce
  cases s.ramp.floor <;> rfl

theorem State.rampOk_msTick (h : s.RampOk) : s.msTick.RampOk := by
  refine ⟨State.rampListOk_msTick h.1, State.noStartOwed_of_states h.2 rfl (fun j => ?_) fun eligible => ?_⟩
  · rw [State.record_msTick, DistrictRecord.state_tick]
  · exact State.eligible_of_crowded eligible (List.length_map _).ge (State.budgetInForce_msTick s).le
      (fun none => Option.map_eq_none_iff.mp none) rfl

theorem State.steady_advance (s : State) : s.Steady s.advance := by
  have state (j : District) : (s.advance.record j).state = (s.record j).state := by
    rw [show s.advance.record j = (s.record j).advance from PerDistrict.get_map DistrictRecord.advance s.districts j,
      DistrictRecord.state_advance]
  exact ⟨fun j => by rw [state], fun j => by rw [state], rfl, rfl, rfl, rfl, rfl, rfl⟩

/-! ### The peer line (05) -/

theorem State.unmoved_of_sameOutsideAttempt (same : State.sameOutsideAttempt s t) : s.Unmoved t := by
  unfold State.sameOutsideAttempt at same
  rw [same]
  exact ⟨rfl, rfl, rfl, rfl, rfl⟩

theorem State.unmoved_modLine (f : LineInterface → LineInterface) (s : State) : s.Unmoved (s.modLine f) :=
  ⟨rfl, rfl, rfl, rfl, rfl⟩

theorem State.unmoved_refl (s : State) : s.Unmoved s := ⟨rfl, rfl, rfl, rfl, rfl⟩

theorem State.unmoved_showLine (level : Level) (s : State) : s.Unmoved (s.showLine level) :=
  State.unmoved_of_sameOutsideLine (State.sameOutsideLine_showLine level s)

theorem State.unmoved_attempt (s : State) : s.Unmoved s.attempt :=
  State.unmoved_of_sameOutsideAttempt (State.sameOutsideAttempt_attempt s)

theorem State.unmoved_idleGap (s : State) : s.Unmoved s.idleGap := by
  have idle := (State.unmoved_showLine .high s).trans (State.unmoved_modLine LineInterface.idleNow _)
  have error (u : State) : u.Unmoved u.gapError := by
    unfold State.gapError
    split
    · exact State.unmoved_refl u
    · exact ⟨rfl, rfl, rfl, rfl, rfl⟩
  unfold State.idleGap
  split
  · exact State.unmoved_refl s
  · exact (idle.trans (error _)).trans (State.unmoved_attempt _)

theorem State.unmoved_idleBoundary (s : State) : s.Unmoved s.idleBoundary := by
  have counted := State.unmoved_modLine (fun l => { l with bitLeft := Config.tBIT }) s
  unfold State.idleBoundary
  dsimp only
  split
  · exact counted.trans (State.unmoved_attempt _)
  · exact counted

theorem State.unmoved_joinEdge (idle : Nat) (s : State) : s.Unmoved (s.joinEdge idle) := by
  have shown : s.Unmoved s.edgeShown := (State.unmoved_showLine .low s).trans (State.unmoved_modLine _ _)
  have taken (u : State) := State.unmoved_of_sameOutsideLine (State.sameOutsideLine_edgeTaken idle u)
  unfold State.joinEdge
  dsimp only
  split
  · exact (shown.trans (State.unmoved_attempt _)).trans (taken _)
  · exact shown.trans (taken _)

theorem State.unmoved_endShown (level : Level) (s : State) : s.Unmoved (s.endAttempt.showLine level) :=
  State.unmoved_of_sameOutsideAttempt (State.sameOutsideAttempt_endShown level s)

theorem State.unmoved_arbitrationLost (s : State) : s.Unmoved s.arbitrationLost := by
  have lost := State.unmoved_endShown .low s
  unfold State.arbitrationLost
  split
  · dsimp only
    split
    · exact lost
    · exact lost.trans (State.unmoved_modLine _ _)
  · exact State.unmoved_refl s

theorem State.unmoved_driveMinimumEnd (s : State) : s.Unmoved s.driveMinimumEnd := by
  unfold State.driveMinimumEnd
  cases s.line.driver with
  | minimum ran =>
    dsimp only
    split
    · exact State.unmoved_modLine _ s
    · exact State.unmoved_of_sameOutsideLine (State.sameOutsideLine_releaseDriver s)
  | held | off => exact State.unmoved_refl s

/-- A driver fault takes the station from RUN to QUIET (R106, R189). -/
theorem State.rampOk_driverFault (h : s.RampOk) : s.driverFault.RampOk := by
  refine State.rampOk_ite h fun sends => State.rampOk_followUp s ?_
  have ended := State.unmoved_endShown .high s
  refine State.rampListOk_enterQuiet ?_ (ended.rampListOk h.1)
  rw [ended.mode, sends.1]
  exact ⟨nofun, nofun⟩

/-- A break that is detected sets LINE_STOP (R108, R172). -/
theorem State.rampOk_breakDetected (halts : s.HaltsAll) (h : s.RampListOk) : s.breakDetected.RampOk := by
  have freed : s.Unmoved ((s.endAttempt.showLine .low).modLine (fun l =>
      { l.notIdle with was := .low, dominant := Config.tBREAK, breakInProgress := true, breakSeen := true })) :=
    (State.unmoved_endShown .low s).trans (State.unmoved_modLine _ _)
  have awaits : ∀ u : State, u.Unmoved u.awaitIdle.discardAssembly := fun u => ⟨rfl, rfl, rfl, rfl, rfl⟩
  have unmoved := freed.trans (awaits _)
  exact State.rampOk_followUp s (State.rampListOk_setLineStop (unmoved.haltsAll halts) (unmoved.rampListOk h))

/-! ### The local inputs (01 1.6) and the samples (01, 02) -/

theorem State.rampListOk_resumePressed (h : s.RampListOk) : s.resumePressed.RampListOk :=
  State.rampListOk_ite h fun _ => State.rampListOk_post _ (State.rampListOk_clearCause .lineStop h)

theorem State.rampListOk_releasePressed (h : s.RampListOk) : s.releasePressed.RampListOk := by
  have released := ((State.steady_releaseAll s).trans (State.steady_clearAlert _)).rampListOk h
  unfold State.releasePressed
  cases s.mode with
  | straps | selfTest => exact h
  | listen | run | quiet | strapFault =>
    dsimp only
    exact released

/-- The driver starts and LINE_STOP is set at STOP/ low (R173); the other inputs move districts and causes. -/
theorem State.rampListOk_deliver (pin : InputPin) (before : Option Level) (level : Level) (halts : s.HaltsAll)
    (h : s.RampListOk) : (s.deliver pin before level).RampListOk := by
  have driven := State.startBreakDriver_unmoved s
  unfold State.deliver
  cases pin with
  | stop =>
    dsimp only
    split
    · exact State.rampListOk_setLineStop (driven.haltsAll halts) (driven.rampListOk h)
    · exact (State.unmoved_of_sameOutsideLine (State.sameOutsideLine_stopReleased s)).rampListOk h
  | resume => exact State.rampListOk_ite h fun _ => State.rampListOk_resumePressed h
  | release => exact State.rampListOk_ite h fun _ => State.rampListOk_releasePressed h
  | cnf k => exact State.rampListOk_cnfDelivered k level h

theorem State.rampOk_debounceExpiry (pin : InputPin) (halts : s.HaltsAll) (h : s.RampOk) :
    (s.debounceExpiry pin).RampOk := by
  have settled := State.unmoved_setQualifier s pin (s.qualifier pin).expired
  exact State.rampOk_ite h fun _ =>
    State.rampOk_followUp s (State.rampListOk_deliver pin _ _ (settled.haltsAll halts) (settled.rampListOk h.1))

theorem State.rampOk_currentSample (k : District) (code : Code) (h : s.RampOk) : (s.currentSample k code).RampOk := by
  have taken :
      ({ s with isenPins := s.isenPins.set k code, converter := s.converter.handedOn k.val } : State).RampOk := h
  unfold State.currentSample
  split
  · exact h
  · dsimp only
    split
    · exact State.rampOk_followUp s (State.rampListOk_treatSample k _ code taken.1)
    · exact taken

theorem State.rampOk_supplySample (v : Code) (h : s.RampOk) : (s.supplySample v).RampOk := by
  have taken (m : SupplyMonitor) : (s.supplyTaken v m).RampOk := h
  unfold State.supplySample
  split
  · exact h
  · dsimp only
    split
    · exact State.rampOk_followUp s (State.rampListOk_setSupply (taken _).1)
    · split
      · exact State.rampOk_followUp s (State.rampListOk_clearCause .supply (taken _).1)
      · exact taken _

/-! ### Frames (06) -/

theorem State.rampListOk_intentOfGroup (own : Option District) (h : s.RampListOk) :
    (s.intentOfGroup own).RampListOk :=
  State.rampListOk_eachDistrict (fun k _ => State.rampListOk_districtHearsIntent own k) (s := s.heardIntent) h

theorem State.rampListOk_addressed (loc : Where) {f : District → State → State}
    (keeps : ∀ k {s : State}, s.RampListOk → (f k s).RampListOk) (h : s.RampListOk) :
    (s.addressed loc f).RampListOk := by
  unfold State.addressed
  split
  · exact State.rampListOk_eachDistrict keeps h
  · exact keeps _ h

theorem State.rampListOk_posts (posts : List Post) (h : s.RampListOk) :
    (posts.foldl (fun s p => s.post p) s).RampListOk := by
  induction posts generalizing s with
  | nil => exact h
  | cons p rest ih => exact ih (State.rampListOk_post p h)

/-- An accepted RB is that of another station, and this one has a configuration (R117, R118, R122). -/
theorem State.peer_of_accepted {f : Frame} (accepted : s.judge f = .accepted) (rb : f.post.kind = .rb) :
    ∃ c, s.config = some c ∧ f.sender ≠ c.id := by
  have notRs : f.post.kind ≠ .rs := by
    rw [rb]
    exact nofun
  have taken (other : s.judge f = .discarded ∨ s.judge f = .duplicate) : False :=
    other.elim (fun d => nomatch accepted.symm.trans d) fun d => nomatch accepted.symm.trans d
  cases config : s.config with
  | none => exact (taken (Or.inl (State.judge_unconfigured config notRs))).elim
  | some c =>
    refine ⟨c, rfl, fun own => taken ?_⟩
    have duplicate := State.judge_duplicate config own
    cases mode : s.mode with
    | straps | selfTest =>
      unfold State.judge
      rw [mode]
      exact Or.inl rfl
    | strapFault => exact Or.inl (State.judge_strapFault mode notRs)
    | listen => exact Or.inr (duplicate (Or.inl mode))
    | run => exact Or.inr (duplicate (Or.inr (Or.inl mode)))
    | quiet => exact Or.inr (duplicate (Or.inr (Or.inr mode)))

theorem State.rampListOk_dispatchPeer {f : Frame} (peer : f.post.kind = .rb → ∃ c, s.config = some c ∧ f.sender ≠ c.id)
    (h : s.RampListOk) : (s.dispatchPeer f).RampListOk := by
  have removed := State.rampListOk_removePeerEntry f.sender f.post.loc.district h
  unfold State.dispatchPeer
  cases kind : f.post.kind <;> dsimp only
  case fi => exact State.rampListOk_intentOfGroup none h
  case tr => split <;> exact removed
  case re => exact removed
  case rb =>
    obtain ⟨c, config, other⟩ := peer kind
    exact State.rampListOk_hearsRamp config other h
  case rs => exact State.rampListOk_ite h fun _ => State.rampListOk_clearCause .lineStop h
  case hd =>
    split
    · exact State.rampListOk_addressed _ (fun k _ => State.rampListOk_holdSet k) h
    · exact State.rampListOk_addressed _ (fun k _ => State.rampListOk_holdClear k) h
  case rl => exact State.rampListOk_addressed _ (fun k _ => State.rampListOk_release k) h
  case sq => exact State.rampListOk_posts _ h
  all_goals exact h

/-- A duplicate takes the station from RUN to QUIET (R123). -/
theorem State.rampListOk_duplicateReport (h : s.RampListOk) : s.duplicateReport.RampListOk := by
  unfold State.duplicateReport
  split
  · rename_i run
    exact State.rampListOk_enterQuiet (by rw [run]; exact ⟨nofun, nofun⟩) h
  all_goals exact h

theorem State.rampOk_peerFrame (f : Frame) (h : s.RampOk) : (s.peerFrame f).RampOk := by
  have unmoved := State.unmoved_of_onlyLine (State.onlyLine_frameComplete f.post.data s)
  have done := unmoved.rampOk h
  refine State.rampOk_ite h fun _ => ?_
  dsimp only
  cases judged : s.judge f with
  | discarded => exact done
  | duplicate => exact State.rampOk_followUp s (State.rampListOk_duplicateReport done.1)
  | accepted =>
    refine State.rampOk_followUp s (State.rampListOk_dispatchPeer (fun rb => ?_) done.1)
    rw [unmoved.config]
    exact State.peer_of_accepted judged rb

theorem State.rampListOk_dispatchOwn (f : Frame) (h : s.RampListOk) : (s.dispatchOwn f).RampListOk := by
  unfold State.dispatchOwn
  cases f.post.kind with
  | fi => exact State.rampListOk_intentOfGroup _ h
  | rb => exact State.rampListOk_recheck _ h
  | tr => exact State.rampListOk_ite h fun _ => h
  | re | rs | st | hd | rl | sq | unknown _ => exact h

/-- A completion settles the attempt, dispatches its copy and tests the direct start (R107, R125, R138). -/
theorem State.rampOk_ownCompletion (f : Frame) (h : s.RampOk) : (s.ownCompletion f).RampOk := by
  have idle : ((s.settleAttempt true).modLine (fun l => { l with tx := none })).RampListOk := h.1
  have freed : (if s.sentAll then (s.settleAttempt true).modLine (fun l => { l with tx := none })
      else ((s.settleAttempt true).modLine (fun l => { l with tx := none })).showLine .high).RampListOk := by
    split
    · exact idle
    · exact (State.unmoved_showLine .high _).rampListOk idle
  have complete := (State.unmoved_of_onlyLine (State.onlyLine_frameComplete f.post.data _)).rampListOk freed
  have done := State.rampListOk_dispatchOwn f complete
  unfold State.ownCompletion
  dsimp only
  split
  · exact State.rampOk_directStart (State.rampListOk_chooseAgain done)
  · exact State.rampOk_followUp s done

theorem State.rampOk_completeInFlight (about : Kind → Bool) (h : s.RampOk) : (s.completeInFlight about).RampOk := by
  unfold State.completeInFlight
  split
  · exact State.rampOk_ite h fun _ => State.rampOk_ownCompletion _ h
  · exact h

theorem State.unmoved_characterHanded (raw : RawChar) (s : State) : s.Unmoved (s.characterHanded raw) :=
  State.unmoved_of_sameOutsideLine (State.sameOutsideLine_characterHanded raw s)

theorem State.rampOk_takeClean (data : Byte) (mark : Bool) (h : s.RampOk) : (s.takeClean data mark).RampOk := by
  have handed := (State.unmoved_characterHanded (RawChar.ofClean data mark) s).rampOk h
  unfold State.takeClean
  dsimp only
  split
  · exact handed
  · split
    · exact handed
    · split
      · exact handed
      · exact handed
      · exact State.rampOk_ite (State.rampOk_peerFrame _ h) fun _ => State.rampOk_ownCompletion _ h
      · exact handed

theorem State.rampOk_selfTestHanded (raw : RawChar) (h : s.RampOk) : (s.selfTestHanded raw).RampOk := by
  have handed := (State.unmoved_characterHanded raw s).rampOk h
  unfold State.selfTestHanded
  cases s.config with
  | some c => exact State.rampOk_ite handed fun _ => handed
  | none => exact handed

theorem State.rampOk_characterArrives (raw : RawChar) (h : s.RampOk) : (s.characterArrives raw).RampOk := by
  have handed := (State.unmoved_characterHanded raw s).rampOk h
  have assembled : (if raw.status = .clean then s.takeClean raw.data raw.mark
      else (s.characterHanded raw).discardAssembly).RampOk := by
    split
    · exact State.rampOk_takeClean _ _ h
    · exact handed
  unfold State.characterArrives
  cases s.mode with
  | straps => exact handed
  | selfTest => exact State.rampOk_selfTestHanded raw h
  | listen | run | quiet | strapFault => exact assembled

/-! ### Start-up (10) -/

/-- Right after a reset nothing is configured, nothing is listed and every district is HALTED (R68, R163, R180). -/
theorem State.rampOk_afterReset (s : State) : s.afterReset.RampOk := by
  have record (j : District) : s.afterReset.record j = DistrictRecord.reset := PerDistrict.get_all _ j
  have configured : s.afterReset.ListConfigured := ⟨⟨fun _ => Or.inl rfl, fun _ => rfl⟩, fun _ => rfl, Nat.zero_le _⟩
  refine ⟨State.rampListOk_of_empty configured rfl fun j => ?_, State.noStartOwed_outside_quiet nofun⟩
  rw [record]
  exact nofun

theorem bandOfReadings_lt {codes : List Code} {b : Nat} (band : bandOfReadings codes = some b) : b < 16 := by
  unfold bandOfReadings at band
  split at band
  · rename_i a _ _ _
    split at band
    · rw [← Option.some.inj band]
      have := a.isLt
      simp only [bandOfCode, Config.BANDW]
      omega
    · cases band
  · cases band

/-- The straps give a B of 16 at most (R182). -/
theorem budget_of_decodeStraps {readings : List Reading} {c : StationConfig} (decoded : decodeStraps readings = some c) :
    c.budget ≤ Config.NLIST := by
  unfold decodeStraps at decoded
  split at decoded
  · rename_i b3 _ _ _ _ _ b3is _ _
    unfold configOfBands at decoded
    split at decoded
    · cases decoded
    · rw [← Option.some.inj decoded]
      exact bandOfReadings_lt b3is
  · cases decoded

/-- The strap decoding of a district moves neither its state nor the list (R39, R70). -/
theorem State.steady_configureDistrict (c : StationConfig) (k : District) (s : State) :
    s.Steady (State.configureDistrict c k s) := by
  have flagged := State.steady_modRecord k (fun d => { d with reversing := c.reverses k }) s
  have driven (r : Relay) := flagged.trans (State.unmoved_setRelay _ k r).steady
  unfold State.configureDistrict
  dsimp only
  split
  · split
    · exact driven _
    · exact flagged
  · exact driven _

/-- A station in STRAPS has an empty list and no RAMPING district (R149). -/
theorem State.empty_of_straps (straps : s.mode = .straps) (h : s.RampListOk) :
    s.ramp.list = [] ∧ ∀ j : District, (s.record j).state ≠ .ramping := by
  obtain ⟨_, ramps, configured⟩ := State.rampListOk_iff.mp h
  have empty := configured.empty (configured.modes.mpr (Or.inl straps))
  refine ⟨empty, fun j ramping => ?_⟩
  obtain ⟨e, mem, _⟩ := State.hasOwnEntry_iff.mp ((ramps j).mpr ramping)
  rw [empty] at mem
  cases mem

/-- A configuration is taken with an empty list (R183). -/
theorem State.rampListOk_takeConfig {c : StationConfig} (budget : c.budget ≤ Config.NLIST) (straps : s.mode = .straps)
    (h : s.RampListOk) : (s.takeConfig c).RampListOk := by
  obtain ⟨empty, noneRamps⟩ := State.empty_of_straps straps h
  let u : State := { s with config := some c }
  have steady : u.Steady (u.eachDistrict (State.configureDistrict c)) :=
    State.eachDistrict_keeps (P := u.Steady) (State.onlyDistrict_configureDistrict c)
      (fun j v kept => kept.trans (State.steady_configureDistrict c j v)) (State.Steady.refl u)
  have config : (s.takeConfig c).config = some c := steady.config
  have list : (s.takeConfig c).ramp.list = [] := steady.list.trans empty
  refine State.rampListOk_of_empty ⟨?_, fun _ => list, ?_⟩ list fun j => mt (steady.ramping j).mp (noneRamps j)
  · rw [config]
    exact iff_of_false nofun (not_or.mpr ⟨nofun, nofun⟩)
  · unfold State.budget
    rw [config]
    exact budget

/-- A refused configuration leaves the station without one (R184). -/
theorem State.rampListOk_enterStrapFault (straps : s.mode = .straps) (h : s.RampListOk) :
    s.enterStrapFault.RampListOk := by
  obtain ⟨empty, noneRamps⟩ := State.empty_of_straps straps h
  obtain ⟨_, _, configured⟩ := State.rampListOk_iff.mp h
  have none := configured.modes.mpr (Or.inl straps)
  exact State.rampListOk_of_empty ⟨⟨fun _ => Or.inr rfl, fun _ => none⟩, fun _ => empty, configured.budget⟩ empty noneRamps

theorem State.rampOk_decodeNow (straps : s.mode = .straps) (h : s.RampListOk) : s.decodeNow.RampOk := by
  unfold State.decodeNow
  cases decoded : decodeStraps s.readings with
  | some c =>
    exact ⟨State.rampListOk_takeConfig (s := { s with converter := .scan 0 0 }) (budget_of_decodeStraps decoded) straps h,
      State.noStartOwed_outside_quiet nofun⟩
  | none =>
    exact ⟨State.rampListOk_enterStrapFault (s := { s with converter := .scan 0 0 }) straps h,
      State.noStartOwed_outside_quiet nofun⟩

theorem State.rampOk_strapReading (strap : Fin 6) (round : Fin 4) (code : Code) (h : s.RampOk) :
    (s.strapReading strap round code).RampOk := by
  refine State.rampOk_ite h fun straps => ?_
  dsimp only
  split
  · exact State.rampOk_decodeNow straps h.1
  · exact h

theorem State.rampOk_endSelfTest (selfTest : s.mode = .selfTest) (h : s.RampListOk) : s.endSelfTest.RampOk := by
  refine ⟨State.rampListOk_of_mode h ?_ ⟨nofun, nofun⟩, State.noStartOwed_outside_quiet nofun⟩
  rw [selfTest]
  exact ⟨nofun, nofun⟩

/-- LISTEN ends in QUIET, with the test of the direct start, or in RUN (R155, R161, R188, R189). -/
theorem State.rampOk_endListen (listens : s.mode = .listen) (h : s.RampListOk) : s.endListen.RampOk := by
  have configured : s.mode ≠ .straps ∧ s.mode ≠ .strapFault := by
    rw [listens]
    exact ⟨nofun, nofun⟩
  unfold State.endListen
  dsimp only
  split
  · exact State.rampOk_followUp _ (State.rampListOk_enterQuiet (s := { s with listen := none }) configured h)
  · let running : State := { s with listen := none, mode := .run }
    have enters : running.RampListOk := State.rampListOk_of_mode h configured ⟨nofun, nofun⟩
    have mode : (running.clearCause .start).chooseAgain.mode = .run := by
      rw [State.mode_of_sameOutside (State.sameOutside_chooseAgain _), State.clearCause_frame]
    refine ⟨State.rampListOk_chooseAgain (State.rampListOk_clearCause .start enters), ?_⟩
    exact State.noStartOwed_outside_quiet (by rw [mode]; exact nofun)

/-! ### Every command, the clock and the step -/

/-- Every command keeps the ramp list in order and leaves no direct start owed, each by its own meaning. -/
theorem exec_keeps_rampOk (c : Instr) (halts : s.HaltsAll) (h : s.RampOk) (next : exec c s = .next t) : t.RampOk := by
  have marked (k : District) (f : DistrictRecord → DistrictRecord)
      (state : (f (s.record k)).state = (s.record k).state := by rfl) : (s.modRecord k f).RampOk :=
    (State.steady_modRecord k f s state).rampOk h
  have onLine {u : State} (same : State.sameOutsideLine s u) : u.RampOk :=
    (State.unmoved_of_sameOutsideLine same).rampOk h
  cases c
  all_goals cases Host.Outcome.next.inj next
  case reset => exact State.rampOk_afterReset s
  case strapReading strap round code => exact State.rampOk_strapReading strap round code h
  case currentSample k code => exact State.rampOk_currentSample k code h
  case supplySample v => exact State.rampOk_supplySample v h
  case probePulseStart k => exact State.rampOk_ite h fun _ => marked k (fun d => { d with phase := .pulse })
  case rawInputChange pin level => exact (State.unmoved_setQualifier s pin _).rampOk h
  case debounceExpiry pin => exact State.rampOk_debounceExpiry pin halts h
  case breakDriveMinimumEnd => exact (State.unmoved_driveMinimumEnd s).rampOk h
  case coolingExpiry k => exact State.rampOk_ite h fun cooling => (State.steady_coolingExpires cooling).rampOk h
  case settleWindowExpiry k => exact State.rampOk_ite h fun _ => marked k _
  case rampKAdvance k => exact State.rampOk_rampAdvances k h
  case rampCompletion k => exact State.rampOk_rampCompletes k h
  case contendTimeout k => exact State.rampOk_ite h fun contend => (State.steady_enterSwitching contend).rampOk h
  case confirmTimeout k => exact (State.steady_confirmRunsOut k s).rampOk h
  case flipWatchEnd k => exact State.rampOk_ite h fun _ => marked k _
  case yieldWatchEnd k => exact State.rampOk_ite h fun _ => marked k _
  case chatterWindowExpiry k => exact State.rampOk_ite h fun _ => h
  case pardonWindowEnd k => exact marked k _
  case millisecondTick => exact State.rampOk_msTick h
  case peerEntryExpiry station k => exact State.rampOk_directStart (State.rampListOk_removePeerEntry station k h.1)
  case floorExpiry => exact State.rampOk_directStart (s := s.modRamp _) h.1
  case holdoffEnd => exact State.rampOk_directStart (s := s.modRamp _) h.1
  case lampPhaseAdvance => exact h
  case selftestCharacter raw => exact State.rampOk_ite h fun _ => State.rampOk_selfTestHanded raw h
  case endOfSelftest => exact State.rampOk_ite h fun selfTest => State.rampOk_endSelfTest selfTest h.1
  case endOfListen => exact State.rampOk_ite h fun listens => State.rampOk_endListen listens h.1
  case characterError raw => exact State.rampOk_characterArrives raw h
  case shortError head => exact State.rampOk_characterArrives _ h
  case cleanCharacter data mark => exact State.rampOk_characterArrives _ h
  case idleGap => exact (State.unmoved_idleGap s).rampOk h
  case idleBoundaryAttempt => exact (State.unmoved_idleBoundary s).rampOk h
  case join idle => exact (State.unmoved_joinEdge _ s).rampOk h
  case arbitrationLoss => exact (State.unmoved_arbitrationLost s).rampOk h
  case driverFault => exact State.rampOk_driverFault h
  case breakDetected => exact State.rampOk_breakDetected halts h.1
  case breakEnd => exact onLine (State.sameOutsideLine_breakEnds s)
  case lineFallingEdge idle => exact onLine (State.sameOutsideLine_fallingEdge _ s)
  case startRecheck level => exact onLine (State.sameOutsideLine_startRecheck level s)
  case ownFiCompletion | ownRbCompletion | ownTrCompletion | ownFrameCompletion =>
    exact State.rampOk_completeInFlight _ h
  all_goals exact State.rampOk_peerFrame _ h

theorem clockStep_keeps_rampOk (halts : s.HaltsAll) (h : s.RampOk) (next : s.clockStep = .next t) : t.RampOk := by
  unfold State.clockStep at next
  split at next
  · cases Host.Outcome.next.inj next
    exact (State.steady_advance s).rampOk h
  · exact exec_keeps_rampOk _ halts h next
  · exact exec_keeps_rampOk _ (s := { s with tie := s.tie + 1 }) halts h next

end Sys2Proof.Machine

open Sys2Proof Sys2Proof.Machine

/-- Settles O58: by the command at the front of the queue of commands, or the clock.  The own entries follow the moves
into and out of RAMPING, and every command that may let a district start ends with the test of the direct start. -/
theorem stepKeepsRampListOk : Obligations.StepKeepsRampListOk := by
  intro s t halt list owed next
  unfold step at next
  split at next
  · exact clockStep_keeps_rampOk halt.haltsAll ⟨list, owed⟩ next
  · rename_i c rest _
    exact exec_keeps_rampOk c (s := { s with pending := rest }) halt.haltsAll ⟨list, owed⟩ next

end

section
/-! PROOFS. The halt, its causes and the HALTED districts (R164, R165, R171, R177): what it means that they agree, and
the moves of a district that neither take it into HALTED nor out of it. -/

namespace Sys2Proof.Machine

variable {d e f : DistrictRecord} {s t u : State} {k : District}

/-! ### A record and the halt -/

/-- R164, R171: a district is HALTED in a halt, and without one it is HALTED with its changeover going on alone. -/
structure DistrictRecord.AgreesWith (halted : Bool) (d : DistrictRecord) : Prop where
  inHalt : halted = true → d.state = .halted
  running : halted = false → d.state = .halted → d.confirmPending = true

/-- The district is HALTED after as before, and then it waits for its changeover as it did. -/
structure DistrictRecord.HaltKept (d e : DistrictRecord) : Prop where
  outside : d.state ≠ .halted → e.state ≠ .halted
  inside : d.state = .halted → e.state = .halted ∧ e.confirmPending = d.confirmPending

theorem DistrictRecord.HaltKept.of_eq (state : e.state = d.state)
    (confirm : e.confirmPending = d.confirmPending) : d.HaltKept e :=
  ⟨fun outside => by rwa [state], fun halted => ⟨state.trans halted, confirm⟩⟩

theorem DistrictRecord.HaltKept.of_outside (before : d.state ≠ .halted) (after : e.state ≠ .halted) : d.HaltKept e :=
  ⟨fun _ => after, fun halted => absurd halted before⟩

theorem DistrictRecord.HaltKept.trans (h : d.HaltKept e) (h' : e.HaltKept f) : d.HaltKept f := by
  refine ⟨fun outside => h'.outside (h.outside outside), fun halted => ?_⟩
  obtain ⟨halted', confirm⟩ := h.inside halted
  obtain ⟨halted'', confirm'⟩ := h'.inside halted'
  exact ⟨halted'', confirm'.trans confirm⟩

theorem DistrictRecord.HaltKept.agreesWith {halted : Bool} (h : d.HaltKept e) (agrees : d.AgreesWith halted) :
    e.AgreesWith halted := by
  refine ⟨fun halts => (h.inside (agrees.inHalt halts)).1, fun runs after => ?_⟩
  have before : d.state = .halted := by_contra fun outside => h.outside outside after
  exact (h.inside before).2.trans (agrees.running runs before)

/-! ### The station and the halt -/

/-- R164, R171: every district agrees with the halt. -/
def State.DistrictsAgree (s : State) : Prop := ∀ k : District, (s.record k).AgreesWith s.halted

/-- R164, R177, 01 1.4: START agrees with the mode, and SUPPLY with the monitor's flag. -/
structure State.CausesAgree (s : State) : Prop where
  start : s.halt.start = true ↔ s.mode ≠ .run ∧ s.mode ≠ .quiet
  supply : s.halt.supply = !s.supply.present

theorem State.haltOk_iff : s.HaltOk ↔ s.DistrictsAgree ∧ s.CausesAgree :=
  ⟨fun ⟨inHalt, running, start, supply⟩ =>
      ⟨fun k => ⟨fun halts => inHalt halts k, fun runs => running runs k⟩, start, supply⟩,
    fun ⟨agree, causes⟩ =>
      ⟨fun halts k => (agree k).inHalt halts, fun runs k => (agree k).running runs, causes.start, causes.supply⟩⟩

theorem State.CausesAgree.congr (h : s.CausesAgree) (halt : t.halt = s.halt) (mode : t.mode = s.mode)
    (supply : t.supply = s.supply) : t.CausesAgree := by
  refine ⟨?_, ?_⟩
  · rw [halt, mode]
    exact h.start
  · rw [halt, supply]
    exact h.supply

/-- No cause, neither the mode nor the supply monitor has moved, and no district has entered or left HALTED. -/
structure State.HaltKept (s t : State) : Prop where
  record : ∀ k : District, (s.record k).HaltKept (t.record k)
  halt : t.halt = s.halt
  mode : t.mode = s.mode
  supply : t.supply = s.supply

theorem State.HaltKept.haltOk (kept : s.HaltKept t) (h : s.HaltOk) : t.HaltOk := by
  obtain ⟨agree, causes⟩ := State.haltOk_iff.mp h
  refine State.haltOk_iff.mpr ⟨fun k => ?_, causes.congr kept.halt kept.mode kept.supply⟩
  rw [State.halted_congr kept.halt]
  exact (kept.record k).agreesWith (agree k)

theorem State.HaltKept.trans (h : s.HaltKept t) (h' : t.HaltKept u) : s.HaltKept u :=
  ⟨fun k => (h.record k).trans (h'.record k), h'.halt.trans h.halt, h'.mode.trans h.mode, h'.supply.trans h.supply⟩

/-- What the agreement reads of the part. -/
def State.haltView (s : State) : PerDistrict DistrictRecord × HaltCauses × Mode × SupplyMonitor :=
  (s.districts, s.halt, s.mode, s.supply)

theorem State.haltKept_of_same (same : t.haltView = s.haltView) : s.HaltKept t := by
  simp only [State.haltView, Prod.mk.injEq] at same
  obtain ⟨districts, halt, mode, supply⟩ := same
  refine ⟨fun k => ?_, halt, mode, supply⟩
  rw [show t.record k = s.record k from congrArg (fun q => PerDistrict.get q k) districts]
  exact .of_eq rfl rfl

theorem State.haltOk_of_same (h : s.HaltOk) (same : t.haltView = s.haltView) : t.HaltOk :=
  (State.haltKept_of_same same).haltOk h

theorem State.HaltKept.refl (s : State) : s.HaltKept s := State.haltKept_of_same rfl

/-- Where a condition holds the state moves on, and else it stays. -/
theorem State.haltKept_ite {p : Prop} [Decidable p] (moved : p → s.HaltKept t) : s.HaltKept (if p then t else s) := by
  split
  · exact moved ‹p›
  · exact .refl s

/-- An operation of one district need only see to that district. -/
theorem State.haltKept_of_onlyDistrict (only : State.onlyDistrict k s t) (own : (s.record k).HaltKept (t.record k)) :
    s.HaltKept t := by
  refine ⟨fun j => ?_, State.halt_of_sameOutside only.2, State.mode_of_sameOutside only.2,
    State.supply_of_sameOutside only.2⟩
  by_cases same : j = k
  · rw [same]
    exact own
  · rw [(only.1 j same).1]
    exact .of_eq rfl rfl

theorem State.haltKept_eachDistrict {f : District → State → State}
    (only : ∀ (k : District) (s : State), State.onlyDistrict k s (f k s))
    (own : ∀ (k : District) (s : State), (s.record k).HaltKept ((f k s).record k)) (s : State) :
    s.HaltKept (s.eachDistrict f) :=
  State.eachDistrict_keeps (P := s.HaltKept) only
    (fun k u kept => kept.trans (State.haltKept_of_onlyDistrict (only k u) (own k u))) (.refl s)

/-- A change of a record that leaves the state and what the district waits for. -/
theorem State.haltKept_modRecord (k : District) (f : DistrictRecord → DistrictRecord) (s : State)
    (own : (s.record k).HaltKept (f (s.record k))) : s.HaltKept (s.modRecord k f) :=
  State.haltKept_of_onlyDistrict (State.onlyDistrict_modRecord k f s) (by rwa [State.record_modRecord_self])

/-- A change of every district's record that takes none into HALTED or out of it. -/
theorem State.haltKept_mapRecords {f : DistrictRecord → DistrictRecord} (own : ∀ d : DistrictRecord, d.HaltKept (f d))
    (districts : t.districts = s.districts.map f) (halt : t.halt = s.halt) (mode : t.mode = s.mode)
    (supply : t.supply = s.supply) : s.HaltKept t := by
  refine ⟨fun k => ?_, halt, mode, supply⟩
  have record : t.record k = f (s.record k) :=
    (congrArg (fun q => PerDistrict.get q k) districts).trans (PerDistrict.get_map f s.districts k)
  rw [record]
  exact own _

theorem DistrictRecord.haltKept_tick (d : DistrictRecord) : d.HaltKept d.tick := by
  refine .of_eq d.state_tick ?_
  unfold DistrictRecord.tick
  split <;> rfl

theorem DistrictRecord.haltKept_advance (d : DistrictRecord) : d.HaltKept d.advance := by
  refine .of_eq d.state_advance ?_
  unfold DistrictRecord.advance
  split <;> rfl

/-! ### Moves that end outside HALTED -/

theorem DistrictRecord.notHalted_probesOrLocks (d : DistrictRecord) (disagrees : Bool) :
    (d.probesOrLocks disagrees).state ≠ .halted := by
  unfold DistrictRecord.probesOrLocks
  split <;> exact nofun

theorem State.notHalted_moveOff (k : District) (f : DistrictRecord → DistrictRecord) (s : State)
    (entered : (f (s.record k)).state ≠ .halted) :
    ((s.moveOff k f).record k).state ≠ .halted := by
  rwa [State.record_moveOff]

theorem State.notHalted_enterProbing (k : District) (s : State) : ((s.enterProbing k).record k).state ≠ .halted := by
  rw [State.record_enterProbing_eq]
  exact DistrictRecord.notHalted_probesOrLocks _ _

theorem State.notHalted_lockForRelay (k : District) (s : State) : ((s.lockForRelay k).record k).state ≠ .halted := by
  rw [State.record_lockForRelay]
  exact nofun

theorem State.notHalted_failWith (k : District) (fault : FaultKind) (n : Nat) (window : Bool) (s : State) :
    ((s.failWith k fault n window).record k).state ≠ .halted := by
  rw [State.record_failWith]
  split <;> exact nofun

theorem State.notHalted_pardonAtTrip (outside : (s.record k).state ≠ .halted) :
    ((s.pardonAtTrip k).record k).state ≠ .halted := by
  rw [State.record_pardonAtTrip]
  split <;> exact outside

theorem State.notHalted_tripLive (k : District) (fault : FaultKind) (s : State) :
    ((s.tripLive k fault).record k).state ≠ .halted :=
  State.notHalted_pardonAtTrip (State.notHalted_failWith k fault _ _ s)

theorem State.notHalted_tripRamp (k : District) (fault : FaultKind) (s : State) :
    ((s.tripRamp k fault).record k).state ≠ .halted :=
  State.notHalted_pardonAtTrip (State.notHalted_failWith k fault _ _ s)

theorem State.notHalted_enterContend (k : District) (origin : Origin) (s : State) :
    ((s.enterContend k origin).record k).state ≠ .halted := by
  rw [State.state_enterContend]
  split <;> exact nofun

theorem State.notHalted_enterSwitching (k : District) (s : State) :
    ((s.enterSwitching k).record k).state ≠ .halted := by
  rw [State.record_enterSwitching]
  exact nofun

theorem State.notHalted_exitByOrigin (k : District) (watch : WatchKind) (s : State) :
    ((s.exitByOrigin k watch).record k).state ≠ .halted := by
  rw [State.record_exitByOrigin]
  unfold State.recordAfterExit
  split
  · exact nofun
  · exact nofun
  · exact DistrictRecord.notHalted_probesOrLocks _ _

/-- A settled HALTED district leaves HALTED by every return class (R170). -/
theorem State.notHalted_leaveHalted (settled : (s.record k).confirmPending = false) :
    ((s.leaveHalted k).record k).state ≠ .halted := by
  rw [State.record_leaveHalted]
  unfold State.recordAfterHalt
  dsimp only
  split
  · split
    · exact nofun
    · exact nofun
    · exact DistrictRecord.notHalted_probesOrLocks _ _
    · exact nofun
    · exact nofun
  · rename_i stays
    exact fun halted => stays ⟨halted, settled⟩

theorem State.notHalted_detectLive (det : Detection) (outside : (s.record k).state ≠ .halted) :
    ((s.detectLive k det).record k).state ≠ .halted := by
  unfold State.detectLive
  cases det with
  | hard =>
    dsimp only
    split
    · exact State.notHalted_enterContend k _ s
    · exact State.notHalted_tripLive k _ s
  | overload => exact State.notHalted_tripLive k _ s
  | early => exact State.notHalted_enterContend k _ s
  | inrush => exact outside

theorem State.notHalted_detectRamping (det : Detection) (outside : (s.record k).state ≠ .halted) :
    ((s.detectRamping k det).record k).state ≠ .halted := by
  unfold State.detectRamping
  cases det with
  | hard =>
    dsimp only
    split
    · exact State.notHalted_enterContend k _ s
    · exact State.notHalted_tripRamp k _ s
  | inrush => exact State.notHalted_tripRamp k _ s.startHoldoff
  | overload | early => exact outside

theorem State.notHalted_probeVerdict (k : District) (v : Verdict) (s : State) :
    ((s.probeVerdict k v).record k).state ≠ .halted := by
  unfold State.probeVerdict
  cases v with
  | clear => exact State.notHalted_moveOff k DistrictRecord.toQueued s nofun
  | short =>
    dsimp only
    split
    · exact State.notHalted_enterContend k _ _
    · exact State.notHalted_failWith k _ _ _ s

/-- The confirm of a SWITCHING district ends in DARK, in a counted failure or by origin (R62, R79, R80). -/
theorem State.notHalted_confirmSwitching (k : District) (s : State) :
    ((s.confirmSwitching k).record k).state ≠ .halted := by
  unfold State.confirmSwitching
  dsimp only
  split
  · exact State.notHalted_moveOff k DistrictRecord.toDark _ nofun
  · split
    · exact State.notHalted_failWith k _ _ _ _
    · exact State.notHalted_exitByOrigin k _ _

/-! ### Moves of a district that a halt does not reach -/

/-- The samples of a HALTED district are discarded (R20). -/
theorem State.haltKept_treatSample (k : District) (l : Nat) (c : Code) (s : State) :
    s.HaltKept (s.treatSample k l c) := by
  have moves {u : State} (only : State.onlyDistrict k s u) (before : (s.record k).state ≠ .halted)
      (after : (u.record k).state ≠ .halted) : s.HaltKept u :=
    State.haltKept_of_onlyDistrict only (.of_outside before after)
  have only := State.onlyDistrict_treatSample k l c s
  unfold State.treatSample at only ⊢
  cases state : (s.record k).state with
  | live =>
    have outside : (s.record k).state ≠ .halted := by rw [state]; exact nofun
    rw [state] at only
    refine moves only outside ?_
    dsimp only [State.sampleLive]
    split
    · exact State.notHalted_detectLive (s := s.setEngine k _) _ outside
    · exact outside
  | ramping =>
    have outside : (s.record k).state ≠ .halted := by rw [state]; exact nofun
    rw [state] at only
    refine moves only outside ?_
    dsimp only [State.sampleRamping]
    split
    · exact State.notHalted_detectRamping (s := s.setEngine k _) _ outside
    · exact outside
  | probing =>
    have outside : (s.record k).state ≠ .halted := by rw [state]; exact nofun
    refine State.haltKept_ite fun _ => ?_
    unfold State.sampleProbe
    split
    · exact .refl s
    · split
      · exact State.haltKept_of_same rfl
      · exact moves (State.onlyDistrict_probeVerdict k _ s) outside (State.notHalted_probeVerdict k _ s)
  | halted | dark | cooling | queued | contend | switching | locked => exact .refl s

theorem State.haltKept_enterSwitching (outside : (s.record k).state ≠ .halted) : s.HaltKept (s.enterSwitching k) :=
  State.haltKept_of_onlyDistrict (State.onlyDistrict_enterSwitching k s)
    (.of_outside outside (State.notHalted_enterSwitching k s))

theorem State.haltKept_enterProbing (outside : (s.record k).state ≠ .halted) : s.HaltKept (s.enterProbing k) :=
  State.haltKept_of_onlyDistrict (State.onlyDistrict_enterProbing k s)
    (.of_outside outside (State.notHalted_enterProbing k s))

theorem State.haltKept_pardonOnIntent (k : District) (s : State) : s.HaltKept (s.pardonOnIntent k) :=
  State.haltKept_ite fun _ => State.haltKept_modRecord k DistrictRecord.pardon s (.of_eq rfl rfl)

/-- A contending district flips or yields, and a cooling one is pardoned (R73 to R75, R87). -/
theorem State.haltKept_districtHearsIntent (own : Option District) (k : District) (s : State) :
    s.HaltKept (State.districtHearsIntent own k s) := by
  have heard : s.HaltKept (s.hearIntentInContend k) := by
    refine State.haltKept_ite fun hears => ?_
    have outside : (s.record k).state ≠ .halted := by rw [hears.1]; exact nofun
    refine (State.haltKept_modRecord k (fun d => { d with yielded := true }) s (.of_eq rfl rfl)).trans ?_
    refine State.haltKept_of_onlyDistrict (State.onlyDistrict_exitByOrigin k .yield _)
      (.of_outside ?_ (State.notHalted_exitByOrigin k .yield _))
    rwa [State.record_modRecord_self]
  unfold State.districtHearsIntent
  split
  · rename_i flips
    exact State.haltKept_enterSwitching (by rw [flips.2]; exact nofun)
  · split
    · exact State.haltKept_pardonOnIntent k s
    · exact heard.trans (State.haltKept_pardonOnIntent k _)

/-- A release moves a LOCKED district, and a HALTED one stays (R59). -/
theorem State.haltKept_release (k : District) (s : State) : (s.record k).HaltKept ((s.release k).record k) := by
  rw [State.record_release]
  unfold State.recordAfterRelease
  dsimp only
  split
  · rename_i locked
    refine .of_outside (by rw [locked]; exact nofun) ?_
    split
    · exact nofun
    · exact DistrictRecord.notHalted_probesOrLocks _ _
  · split <;> exact .of_eq rfl rfl

/-- A hold is set in HALTED and in SWITCHING without a move, and takes every other district to DARK (R61 to R63). -/
theorem DistrictRecord.haltKept_held (d : DistrictRecord) : d.HaltKept d.held := by
  by_cases stays : d.stays
  · rcases stays with halted | switching | dark
    · rw [DistrictRecord.held_halted halted]
      exact .of_eq rfl rfl
    · rw [DistrictRecord.held_switching switching]
      exact .of_eq rfl rfl
    · rw [DistrictRecord.held_dark dark]
      exact .of_eq rfl rfl
  · rw [DistrictRecord.held_moves stays]
    exact .of_outside (fun halted => stays (Or.inl halted)) nofun

theorem State.haltKept_holdSet (k : District) (s : State) : (s.record k).HaltKept ((s.holdSet k).record k) := by
  rw [State.record_holdSet]
  exact DistrictRecord.haltKept_held _

/-- A hold that is cleared lets a DARK district probe, and a HALTED one stays (R64). -/
theorem State.haltKept_holdClear (k : District) (s : State) : (s.record k).HaltKept ((s.holdClear k).record k) := by
  rw [State.record_holdClear]
  unfold State.recordAfterHoldClear
  dsimp only
  split
  · split
    · rename_i dark
      exact .of_outside (by rw [dark]; exact nofun) (DistrictRecord.notHalted_probesOrLocks _ _)
    · split <;> exact .of_eq rfl rfl
  · exact .of_eq rfl rfl

theorem State.haltKept_relayFault (k : District) (s : State) : s.HaltKept (s.relayFault k) := by
  have locks (outside : (s.record k).state ≠ .halted) : s.HaltKept (s.lockForRelay k) :=
    State.haltKept_of_onlyDistrict (State.onlyDistrict_lockForRelay k s)
      (.of_outside outside (State.notHalted_lockForRelay k s))
  unfold State.relayFault
  dsimp only
  cases state : (s.record k).state with
  | locked => exact State.haltKept_modRecord k _ s (.of_eq rfl rfl)
  | halted =>
    dsimp only
    split
    · exact .refl s
    · exact State.haltKept_modRecord k _ s (.of_eq rfl rfl)
  | switching => exact .refl s
  | live | ramping | probing | cooling | queued | contend | dark => exact locks (by rw [state]; exact nofun)

/-! ### The ramp list unit (08) -/

theorem State.haltKept_post (p : Post) (s : State) : s.HaltKept (s.post p) :=
  State.haltKept_of_same (by rw [State.post_frame]; rfl)

theorem State.haltKept_chooseAgain (s : State) : s.HaltKept s.chooseAgain := by
  rw [State.chooseAgain_frame]
  exact State.haltKept_of_same rfl

/-- What follows a command starts the ramp of a QUEUED district at most (R161). -/
theorem State.haltKept_of_starts (outside : State.sameOutsideDistricts s t)
    (starts : ∀ k, t.record k = s.record k ∨
      s.mode = .quiet ∧ (s.record k).state = .queued ∧ t.record k = (s.record k).toRamping) : s.HaltKept t := by
  refine ⟨fun k => ?_, State.halt_of_sameOutside outside, State.mode_of_sameOutside outside,
    State.supply_of_sameOutside outside⟩
  rcases starts k with same | ⟨_, queued, ramps⟩
  · rw [same]
    exact .of_eq rfl rfl
  · rw [ramps]
    exact .of_outside (by rw [queued]; exact nofun) nofun

theorem State.haltKept_directStart (s : State) : s.HaltKept s.directStart :=
  State.haltKept_of_starts (State.sameOutside_directStart s) (State.record_directStart s)

theorem State.haltKept_followUp (before s : State) : s.HaltKept (State.followUp before s) :=
  State.haltKept_of_starts (State.sameOutside_followUp before s) (State.record_followUp before s)

/-- The re-check of an own RB starts the ramp of a QUEUED district alone (R158, R159). -/
theorem State.haltKept_recheck (k : District) (s : State) : s.HaltKept (s.recheck k) := by
  refine State.haltKept_of_onlyDistrict (State.onlyDistrict_recheck k s) ?_
  unfold State.recheck
  dsimp only
  split
  · rename_i passes
    rw [State.record_startRamp]
    exact .of_outside (fun halted => nomatch halted.symm.trans passes.1) nofun
  · rw [State.postRe, State.record_post]
    exact .of_eq rfl rfl

end Sys2Proof.Machine
end

section
/-! PROOFS. The agreement of causes, mode and districts where a halt begins, goes on or ends, and along every command,
the clock's microsecond and the step (R164, R165, R168, R171, R177). -/

namespace Sys2Proof.Machine

variable {s t u v : State} {k : District}

/-! ### Changeovers inside a halt (R168, R171) -/

/-- A district's step that keeps its own record in agreement keeps the station's. -/
theorem State.haltOk_of_onlyDistrict (only : State.onlyDistrict k s t)
    (own : (s.record k).AgreesWith s.halted → (t.record k).AgreesWith s.halted) (h : s.HaltOk) : t.HaltOk := by
  obtain ⟨agree, causes⟩ := State.haltOk_iff.mp h
  have halt := State.halt_of_sameOutside only.2
  refine State.haltOk_iff.mpr ⟨fun j => ?_,
    causes.congr halt (State.mode_of_sameOutside only.2) (State.supply_of_sameOutside only.2)⟩
  rw [State.halted_congr halt]
  by_cases same : j = k
  · rw [same]
    exact own (agree k)
  · rw [(only.1 j same).1]
    exact agree j

/-- Where a condition holds the state moves on, and else it stays. -/
theorem State.haltOk_ite {p : Prop} [Decidable p] (h : s.HaltOk) (moved : p → t.HaltOk) :
    (if p then t else s).HaltOk := by
  split
  · exact moved ‹p›
  · exact h

/-- A changeover settled in a halt leaves the district HALTED, and after the halt it leaves HALTED at once. -/
theorem State.agreesWith_settlePending (halted : (s.record k).state = .halted) (cls : ReturnClass) :
    ((s.settlePending k cls).record k).AgreesWith s.halted := by
  have settled : (s.modRecord k (DistrictRecord.settled cls)).record k = (s.record k).settled cls :=
    State.record_modRecord_self k _ s
  cases halts : s.halted with
  | true =>
    rw [State.settlePending_halted halts, settled]
    exact ⟨fun _ => halted, nofun⟩
  | false =>
    rw [State.settlePending_running halts]
    refine ⟨nofun, fun _ stays => absurd stays (State.notHalted_leaveHalted ?_)⟩
    rw [settled]
    rfl

theorem State.haltOk_settlePending (cls : ReturnClass) (halted : (s.record k).state = .halted) (h : s.HaltOk) :
    (s.settlePending k cls).HaltOk :=
  State.haltOk_of_onlyDistrict (State.onlyDistrict_settlePending k cls s)
    (fun _ => State.agreesWith_settlePending halted cls) h

/-- The confirm of a confirm-pending district settles it (R168). -/
theorem State.haltOk_confirmPendingFlip (halted : (s.record k).state = .halted) (h : s.HaltOk) :
    (s.confirmPendingFlip k).HaltOk := by
  let counted : State := s.modRelay k Relay.countFlip
  have kept : s.HaltKept (counted.modRecord k (fun d => { d with yielded := false })) :=
    (State.haltKept_of_same (s := s) (t := counted) rfl).trans 
      (State.haltKept_modRecord k (fun d => { d with yielded := false }) counted (.of_eq rfl rfl))
  exact State.haltOk_settlePending _ ((kept.record k).inside halted).1 (kept.haltOk h)

/-- The confirm timer that runs out locks a SWITCHING district, and settles a confirm-pending one (R81, R168). -/
theorem State.haltOk_confirmRunsOut (k : District) (h : s.HaltOk) : (s.confirmRunsOut k).HaltOk := by
  let stopped : State := s.modRelay k (fun r => { r with confirm := none })
  have kept : s.HaltKept stopped := State.haltKept_of_same rfl
  unfold State.confirmRunsOut
  dsimp only
  split
  · rename_i switching
    have outside : (stopped.record k).state ≠ .halted := (kept.record k).outside (by rw [switching]; exact nofun)
    exact (kept.trans (State.haltKept_of_onlyDistrict (State.onlyDistrict_lockForRelay k stopped)
      (.of_outside outside (State.notHalted_lockForRelay k stopped)))).haltOk h
  · refine State.haltOk_ite h fun inHalt => ?_
    have fails : s.HaltKept (stopped.modRecord k (fun d => { d with lastFault := .relay })).setAlert :=
      (kept.trans (State.haltKept_modRecord k (fun d => { d with lastFault := .relay }) stopped (.of_eq rfl rfl))).trans
        (State.haltKept_of_same rfl)
    have halted := (DistrictRecord.pendingInHalt_iff.mp inHalt).1
    exact State.haltOk_settlePending .locked ((fails.record k).inside halted).1 (fails.haltOk h)

/-- A reading confirms a changeover, is no fault, or is one (R79, R85, R168). -/
theorem State.haltOk_judgeReading (k : District) (h : s.HaltOk) : (s.judgeReading k).HaltOk := by
  unfold State.judgeReading
  dsimp only
  split
  · rename_i switching
    refine State.haltOk_ite h fun _ => State.HaltKept.haltOk ?_ h
    exact State.haltKept_of_onlyDistrict (State.onlyDistrict_confirmSwitching k s)
      (.of_outside (by rw [switching]; exact nofun) (State.notHalted_confirmSwitching k s))
  · split
    · rename_i inHalt
      exact State.haltOk_ite h fun _ =>
        State.haltOk_confirmPendingFlip (DistrictRecord.pendingInHalt_iff.mp inHalt).1 h
    · exact State.haltOk_ite h fun _ => (State.haltKept_relayFault k s).haltOk h

theorem State.haltOk_cnfDelivered (k : District) (level : Level) (h : s.HaltOk) : (s.cnfDelivered k level).HaltOk := by
  have told (f : Relay → Relay) (u : State) : u.HaltKept (u.modRelay k f) := State.haltKept_of_same rfl
  refine State.haltOk_ite h fun _ => ?_
  dsimp only
  split
  · exact ((told _ s).trans (told _ _)).haltOk h
  · exact State.haltOk_judgeReading k ((told _ s).haltOk h)

/-! ### Causes that are set and cleared (R164, R165) -/

theorem State.DistrictsAgree.haltsAll (agree : s.DistrictsAgree) : s.HaltsAll := fun halted k => (agree k).inHalt halted

/-- A cause that is set leaves every district HALTED (R165). -/
theorem State.districtsAgree_setCause (c : HaltCause) (agree : s.DistrictsAgree) : (s.setCause c).DistrictsAgree := by
  intro k
  refine ⟨fun _ => State.record_setCause_halted c agree.haltsAll k, fun runs => ?_⟩
  exact nomatch (State.halted_setCause c s).symm.trans runs

/-- At the end of a halt a district stays HALTED for its changeover alone (R170, R171). -/
theorem State.agreesWith_endHalt (s : State) (k : District) : (s.endHalt.record k).AgreesWith false := by
  refine ⟨nofun, fun _ halted => Bool.of_not_eq_false fun settled => ?_⟩
  obtain ⟨u, record, _, _, _, after, _⟩ := State.record_eachDistrict State.onlyDistrict_leaveHalted s k
  have left : s.endHalt.record k = (u.leaveHalted k).record k := after
  rw [left] at halted settled
  by_cases confirms : (u.record k).confirmPending = false
  · exact State.notHalted_leaveHalted confirms halted
  · have stays : u.leaveHalted k = u := if_neg fun both => confirms both.2
    rw [stays] at settled
    exact confirms settled

/-- Where causes are cleared the halt goes on, or it ends with the last of them (R165). -/
theorem State.districtsAgree_cleared (districts : u.districts = s.districts)
    (same : v.halted = u.halted) (fewer : s.halted = false → u.halted = false) (agree : s.DistrictsAgree) :
    (if s.halted = true ∧ u.halted = false then v.endHalt else u).DistrictsAgree := by
  intro k
  have record : u.record k = s.record k := congrArg (fun q => PerDistrict.get q k) districts
  split
  · rename_i ends
    have ended : v.endHalt.halted = false :=
      (State.halted_congr (State.halt_of_sameOutside (State.sameOutside_endHalt v))).trans (same.trans ends.2)
    rw [ended]
    exact State.agreesWith_endHalt v k
  · rename_i goesOn
    have unmoved : u.halted = s.halted := by
      cases halted : s.halted with
      | false => exact fewer halted
      | true => exact Bool.of_not_eq_false fun ends => goesOn ⟨halted, ends⟩
    rw [record, unmoved]
    exact agree k

theorem HaltCauses.absent_put {h : HaltCauses} (c : HaltCause)
    (absent : (h.start || h.lineStop || h.supply) = false) :
    ((h.put c false).start || (h.put c false).lineStop || (h.put c false).supply) = false := by
  simp only [Bool.or_eq_false_iff] at absent ⊢
  obtain ⟨⟨start, lineStop⟩, supply⟩ := absent
  cases c with
  | start => exact ⟨⟨rfl, lineStop⟩, supply⟩
  | lineStop => exact ⟨⟨start, rfl⟩, supply⟩
  | supply => exact ⟨⟨start, lineStop⟩, rfl⟩

theorem State.districtsAgree_clearCause (c : HaltCause) (agree : s.DistrictsAgree) : (s.clearCause c).DistrictsAgree :=
  State.districtsAgree_cleared (u := { s with halt := s.halt.put c false })
    (v := { s with halt := s.halt.put c false, haltEnded := true }) rfl rfl (HaltCauses.absent_put c) agree

/-- The entry to QUIET before the end of a halt by it (R189). -/
def State.quietEntered (s : State) : State :=
  { s with mode := .quiet, halt := s.halt.put .start false, queue := [],
           ramp := { s.ramp with rbDistrict := none, chosen := none },
           line := { s.line with tx := none }, alert := true }

theorem State.enterQuiet_eq (s : State) :
    s.enterQuiet =
      if s.halted = true ∧ s.quietEntered.halted = false then s.quietEntered.endHalt else s.quietEntered := rfl

theorem State.sameOutside_enterQuiet (s : State) : State.sameOutsideDistricts s.quietEntered s.enterQuiet := by
  rw [State.enterQuiet_eq]
  split
  · exact State.sameOutside_endHalt s.quietEntered
  · exact State.sameOutsideDistricts_refl s.quietEntered

theorem State.districtsAgree_enterQuiet (agree : s.DistrictsAgree) : s.enterQuiet.DistrictsAgree := by
  rw [State.enterQuiet_eq]
  exact State.districtsAgree_cleared rfl rfl (HaltCauses.absent_put .start) agree

/-- A cause is set where it comes to agree with the mode and the monitor. -/
theorem State.haltOk_setCause (c : HaltCause) (agree : s.DistrictsAgree)
    (causes : ({ s with halt := s.halt.put c true } : State).CausesAgree) : (s.setCause c).HaltOk :=
  State.haltOk_iff.mpr ⟨State.districtsAgree_setCause c agree,
    causes.congr (State.halt_setCause c s) (by rw [State.setCause_frame]) (State.supply_setCause c s)⟩

/-- A cause is cleared where it comes to agree with the mode and the monitor. -/
theorem State.haltOk_clearCause (c : HaltCause) (agree : s.DistrictsAgree)
    (causes : ({ s with halt := s.halt.put c false } : State).CausesAgree) : (s.clearCause c).HaltOk :=
  State.haltOk_iff.mpr ⟨State.districtsAgree_clearCause c agree,
    causes.congr (State.halt_clearCause c s) (by rw [State.clearCause_frame]) (State.supply_clearCause c s)⟩

/-- LINE_STOP goes with neither the mode nor the monitor (R172, R174). -/
theorem State.haltOk_setLineStop (h : s.HaltOk) : (s.setCause .lineStop).HaltOk := by
  obtain ⟨agree, causes⟩ := State.haltOk_iff.mp h
  exact State.haltOk_setCause .lineStop agree ⟨causes.start, causes.supply⟩

theorem State.haltOk_clearLineStop (h : s.HaltOk) : (s.clearCause .lineStop).HaltOk := by
  obtain ⟨agree, causes⟩ := State.haltOk_iff.mp h
  exact State.haltOk_clearCause .lineStop agree ⟨causes.start, causes.supply⟩

/-- QUIET is entered with START cleared (R189). -/
theorem State.haltOk_enterQuiet (h : s.HaltOk) : s.enterQuiet.HaltOk := by
  obtain ⟨agree, causes⟩ := State.haltOk_iff.mp h
  have outside := State.sameOutside_enterQuiet s
  refine State.haltOk_iff.mpr ⟨State.districtsAgree_enterQuiet agree, ?_⟩
  refine State.CausesAgree.congr (s := s.quietEntered) ?_ (State.halt_of_sameOutside outside)
    (State.mode_of_sameOutside outside) (State.supply_of_sameOutside outside)
  exact ⟨iff_of_false nofun fun ⟨_, notQuiet⟩ => notQuiet rfl, causes.supply⟩

theorem State.haltOk_followUp (before : State) (h : s.HaltOk) : (State.followUp before s).HaltOk :=
  (State.haltKept_followUp before s).haltOk h

/-! ### Samples (01, 02) -/

theorem State.haltKept_currentSample (k : District) (code : Code) (s : State) : s.HaltKept (s.currentSample k code) := by
  have taken : s.HaltKept { s with isenPins := s.isenPins.set k code, converter := s.converter.handedOn k.val } :=
    State.haltKept_of_same rfl
  unfold State.currentSample
  split
  · exact .refl s
  · dsimp only
    split
    · exact (taken.trans (State.haltKept_treatSample k _ code _)).trans (State.haltKept_followUp s _)
    · exact taken

/-- SUPPLY is set with the loss of the flag, and cleared with its return (R9, R10). -/
theorem State.haltOk_supplySample (v : Code) (h : s.HaltOk) : (s.supplySample v).HaltOk := by
  by_cases straps : s.mode = .straps
  · rwa [show s.supplySample v = s from if_pos straps]
  obtain ⟨agree, causes⟩ := State.haltOk_iff.mp h
  by_cases lost : (s.supply.counted v).lowRun = Config.NLOW ∧ s.supply.present = true
  · rw [State.supplySample_lost straps lost.1 lost.2]
    exact State.haltOk_followUp s (State.haltOk_setCause .supply agree ⟨causes.start, rfl⟩)
  · by_cases restored : (s.supply.counted v).highRun = Config.NHIGH ∧ s.supply.present = false
    · rw [State.supplySample_restored straps restored.1 restored.2]
      exact State.haltOk_followUp s (State.haltOk_clearCause .supply agree ⟨causes.start, rfl⟩)
    · rw [State.supplySample_counted straps lost restored]
      refine State.haltOk_iff.mpr ⟨agree, causes.start, causes.supply.trans ?_⟩
      exact congrArg (!·) (SupplyMonitor.present_counted s.supply v).symm

/-! ### The ends of timers (03, 04) -/

theorem State.haltKept_coolingExpires (k : District) (s : State) : s.HaltKept (s.coolingExpires k) := by
  refine State.haltKept_ite fun cooling => ?_
  have cooled := State.haltKept_modRecord k (fun d => { d with cooling := 0 }) s (.of_eq rfl rfl)
  exact cooled.trans (State.haltKept_enterProbing ((cooled.record k).outside (by rw [cooling]; exact nofun)))

theorem State.haltKept_rampCompletes (k : District) (s : State) : s.HaltKept (s.rampCompletes k) := by
  refine State.haltKept_ite fun ramping => State.HaltKept.trans ?_ (State.haltKept_followUp s _)
  refine State.haltKept_of_onlyDistrict (State.onlyDistrict_completeRamp k s)
    (.of_outside (by rw [ramping]; exact nofun) ?_)
  rw [State.record_completeRamp]
  exact nofun

theorem State.haltKept_rampAdvances (k : District) (s : State) : s.HaltKept (s.rampAdvances k) := by
  refine State.haltKept_ite fun _ => ?_
  split
  · exact State.haltKept_modRecord k _ s (.of_eq rfl rfl)
  · exact State.haltKept_rampCompletes k s

/-! ### The peer line (05) -/

theorem State.haltKept_of_sameOutsideLine (same : State.sameOutsideLine s t) : s.HaltKept t := by
  unfold State.sameOutsideLine at same
  rw [same]
  exact State.haltKept_of_same rfl

theorem State.haltKept_of_sameOutsideAttempt (same : State.sameOutsideAttempt s t) : s.HaltKept t := by
  unfold State.sameOutsideAttempt at same
  rw [same]
  exact State.haltKept_of_same rfl

theorem State.haltKept_modLine (f : LineInterface → LineInterface) (s : State) : s.HaltKept (s.modLine f) :=
  State.haltKept_of_same rfl

theorem State.haltKept_showLine (level : Level) (s : State) : s.HaltKept (s.showLine level) :=
  State.haltKept_of_sameOutsideLine (State.sameOutsideLine_showLine level s)

theorem State.haltKept_attempt (s : State) : s.HaltKept s.attempt :=
  State.haltKept_of_sameOutsideAttempt (State.sameOutsideAttempt_attempt s)

theorem State.haltKept_endShown (level : Level) (s : State) : s.HaltKept (s.endAttempt.showLine level) :=
  State.haltKept_of_sameOutsideAttempt (State.sameOutsideAttempt_endShown level s)

theorem State.haltKept_characterHanded (raw : RawChar) (s : State) : s.HaltKept (s.characterHanded raw) :=
  State.haltKept_of_sameOutsideLine (State.sameOutsideLine_characterHanded raw s)

theorem State.haltKept_discardAssembly (s : State) : s.HaltKept s.discardAssembly := State.haltKept_of_same rfl

theorem State.haltKept_idleGap (s : State) : s.HaltKept s.idleGap := by
  have idle := (State.haltKept_showLine .high s).trans (State.haltKept_modLine LineInterface.idleNow _)
  have error (u : State) : u.HaltKept u.gapError := by
    unfold State.gapError
    split
    · exact .refl u
    · exact State.haltKept_discardAssembly u
  unfold State.idleGap
  split
  · exact .refl s
  · exact (idle.trans (error _)).trans (State.haltKept_attempt _)

theorem State.haltKept_idleBoundary (s : State) : s.HaltKept s.idleBoundary := by
  have counted := State.haltKept_modLine (fun l => { l with bitLeft := Config.tBIT }) s
  unfold State.idleBoundary
  dsimp only
  split
  · exact counted.trans (State.haltKept_attempt _)
  · exact counted

theorem State.haltKept_joinEdge (idle : Nat) (s : State) : s.HaltKept (s.joinEdge idle) := by
  have shown : s.HaltKept s.edgeShown := (State.haltKept_showLine .low s).trans (State.haltKept_modLine _ _)
  have taken (u : State) := State.haltKept_of_sameOutsideLine (State.sameOutsideLine_edgeTaken idle u)
  unfold State.joinEdge
  dsimp only
  split
  · exact (shown.trans (State.haltKept_attempt _)).trans (taken _)
  · exact shown.trans (taken _)

theorem State.haltKept_arbitrationLost (s : State) : s.HaltKept s.arbitrationLost := by
  have lost := State.haltKept_endShown .low s
  refine State.haltKept_ite fun _ => ?_
  dsimp only
  split
  · exact lost
  · exact lost.trans (State.haltKept_modLine _ _)

theorem State.haltKept_driveMinimumEnd (s : State) : s.HaltKept s.driveMinimumEnd := by
  unfold State.driveMinimumEnd
  cases s.line.driver with
  | minimum ran =>
    dsimp only
    split
    · exact State.haltKept_modLine _ s
    · exact State.haltKept_of_sameOutsideLine (State.sameOutsideLine_releaseDriver s)
  | held | off => exact .refl s

/-- A driver fault takes the station from RUN to QUIET (R106, R189). -/
theorem State.haltOk_driverFault (h : s.HaltOk) : s.driverFault.HaltOk :=
  State.haltOk_ite h fun _ =>
    State.haltOk_followUp s (State.haltOk_enterQuiet ((State.haltKept_endShown .high s).haltOk h))

/-- A break that is detected sets LINE_STOP (R108, R172). -/
theorem State.haltOk_breakDetected (h : s.HaltOk) : s.breakDetected.HaltOk := by
  have freed := (State.haltKept_endShown .low s).trans (State.haltKept_modLine (fun l =>
    { l.notIdle with was := .low, dominant := Config.tBREAK, breakInProgress := true, breakSeen := true }) _)
  have awaits (u : State) : u.HaltKept u.awaitIdle.discardAssembly := State.haltKept_of_same rfl
  exact State.haltOk_followUp s (State.haltOk_setLineStop ((freed.trans (awaits _)).haltOk h))

/-! ### The local inputs (01 1.6) -/

theorem State.haltKept_setQualifier (pin : InputPin) (q : Qualifier) (s : State) : s.HaltKept (s.setQualifier pin q) := by
  cases pin <;> exact State.haltKept_of_same rfl

theorem State.haltOk_stopAssertedNow (h : s.HaltOk) : s.stopAssertedNow.HaltOk := by
  have driven : s.HaltKept s.startBreakDriver := by
    rw [State.startBreakDriver_frame]
    exact State.haltKept_of_same rfl
  exact State.haltOk_setLineStop (driven.haltOk h)

theorem State.haltOk_resumePressed (h : s.HaltOk) : s.resumePressed.HaltOk :=
  State.haltOk_ite h fun _ => (State.haltKept_post _ _).haltOk (State.haltOk_clearLineStop h)

theorem State.haltKept_releasePressed (s : State) : s.HaltKept s.releasePressed := by
  have cleared (u : State) : u.HaltKept u.clearAlert := by
    rw [State.clearAlert_frame]
    exact State.haltKept_of_same rfl
  have released : s.HaltKept (s.eachDistrict State.release).clearAlert :=
    (State.haltKept_eachDistrict State.onlyDistrict_release State.haltKept_release s).trans (cleared _)
  unfold State.releasePressed
  cases s.mode with
  | straps | selfTest => exact .refl s
  | listen | run | quiet | strapFault => exact released

/-- STOP/ and RESUME/ move LINE_STOP, and a CNFk level may settle a changeover (R173, R175, R168). -/
theorem State.haltOk_deliver (pin : InputPin) (before : Option Level) (level : Level) (h : s.HaltOk) :
    (s.deliver pin before level).HaltOk := by
  unfold State.deliver
  cases pin with
  | stop =>
    dsimp only
    split
    · exact State.haltOk_stopAssertedNow h
    · exact (State.haltKept_of_sameOutsideLine (State.sameOutsideLine_stopReleased s)).haltOk h
  | resume => exact State.haltOk_ite h fun _ => State.haltOk_resumePressed h
  | release => exact State.haltOk_ite h fun _ => (State.haltKept_releasePressed s).haltOk h
  | cnf k => exact State.haltOk_cnfDelivered k level h

theorem State.haltOk_debounceExpiry (pin : InputPin) (h : s.HaltOk) : (s.debounceExpiry pin).HaltOk :=
  State.haltOk_ite h fun _ =>
    State.haltOk_followUp s (State.haltOk_deliver pin _ _ ((State.haltKept_setQualifier pin _ s).haltOk h))

/-! ### Frames (06) -/

theorem State.haltKept_intentOfGroup (own : Option District) (s : State) : s.HaltKept (s.intentOfGroup own) := by
  have heard : s.HaltKept s.heardIntent := State.haltKept_of_same rfl
  exact heard.trans (State.haltKept_eachDistrict (State.onlyDistrict_districtHearsIntent own)
    (fun k u => (State.haltKept_districtHearsIntent own k u).record k) s.heardIntent)

theorem State.haltKept_addressed (loc : Where) {f : District → State → State}
    (only : ∀ (k : District) (s : State), State.onlyDistrict k s (f k s))
    (own : ∀ (k : District) (s : State), (s.record k).HaltKept ((f k s).record k)) (s : State) :
    s.HaltKept (s.addressed loc f) := by
  unfold State.addressed
  split
  · exact State.haltKept_eachDistrict only own s
  · exact State.haltKept_of_onlyDistrict (only _ s) (own _ s)

theorem State.haltKept_posts (posts : List Post) (s : State) : s.HaltKept (posts.foldl (fun s p => s.post p) s) := by
  induction posts generalizing s with
  | nil => exact .refl s
  | cons p rest ih => exact (State.haltKept_post p s).trans (ih (s.post p))

/-- Of the frames of other stations the RS alone moves a cause (R124, R174). -/
theorem State.haltOk_dispatchPeer (f : Frame) (h : s.HaltOk) : (s.dispatchPeer f).HaltOk := by
  unfold State.dispatchPeer
  cases f.post.kind <;> dsimp only
  case fi => exact (State.haltKept_intentOfGroup none s).haltOk h
  case tr => split <;> exact State.haltOk_of_same h rfl
  case re => exact State.haltOk_of_same h rfl
  case rb => exact State.haltOk_of_same h rfl
  case rs => exact State.haltOk_ite h fun _ => State.haltOk_clearLineStop h
  case hd =>
    split
    · exact (State.haltKept_addressed _ State.onlyDistrict_holdSet State.haltKept_holdSet s).haltOk h
    · exact (State.haltKept_addressed _ State.onlyDistrict_holdClear State.haltKept_holdClear s).haltOk h
  case rl => exact (State.haltKept_addressed _ State.onlyDistrict_release State.haltKept_release s).haltOk h
  case sq => exact (State.haltKept_posts _ s).haltOk h
  all_goals exact h

/-- A duplicate takes the station from RUN to QUIET (R123). -/
theorem State.haltOk_duplicateReport (h : s.HaltOk) : s.duplicateReport.HaltOk := by
  unfold State.duplicateReport
  split
  · exact State.haltOk_enterQuiet h
  · exact State.haltOk_of_same h rfl
  all_goals exact h

theorem State.haltKept_frameComplete (data : Byte) (s : State) : s.HaltKept (s.frameComplete data) :=
  (State.haltKept_characterHanded (RawChar.ofClean data false) s).trans (State.haltKept_of_same rfl)

theorem State.haltOk_peerFrame (f : Frame) (h : s.HaltOk) : (s.peerFrame f).HaltOk := by
  have done := (State.haltKept_frameComplete f.post.data s).haltOk h
  refine State.haltOk_ite h fun _ => ?_
  dsimp only
  split
  · exact done
  · exact State.haltOk_followUp s (State.haltOk_duplicateReport done)
  · exact State.haltOk_followUp s (State.haltOk_dispatchPeer f done)

theorem State.haltKept_dispatchOwn (f : Frame) (s : State) : s.HaltKept (s.dispatchOwn f) := by
  unfold State.dispatchOwn
  cases f.post.kind with
  | fi => exact State.haltKept_intentOfGroup _ s
  | rb => exact State.haltKept_recheck _ s
  | tr => exact State.haltKept_ite fun _ => State.haltKept_of_same rfl
  | re | rs | st | hd | rl | sq | unknown _ => exact .refl s

/-- A completion settles the attempt, dispatches its copy and lets the ramp list unit follow (R107, R125, R138). -/
theorem State.haltKept_ownCompletion (f : Frame) (s : State) : s.HaltKept (s.ownCompletion f) := by
  have idle : s.HaltKept ((s.settleAttempt true).modLine (fun l => { l with tx := none })) := State.haltKept_of_same rfl
  have freed : s.HaltKept (if s.sentAll then (s.settleAttempt true).modLine (fun l => { l with tx := none })
      else ((s.settleAttempt true).modLine (fun l => { l with tx := none })).showLine .high) := by
    split
    · exact idle
    · exact idle.trans (State.haltKept_showLine .high _)
  have done := (freed.trans (State.haltKept_frameComplete f.post.data _)).trans (State.haltKept_dispatchOwn f _)
  unfold State.ownCompletion
  dsimp only
  split
  · exact (done.trans (State.haltKept_chooseAgain _)).trans (State.haltKept_directStart _)
  · exact done.trans (State.haltKept_followUp s _)

theorem State.haltKept_completeInFlight (about : Kind → Bool) (s : State) : s.HaltKept (s.completeInFlight about) := by
  unfold State.completeInFlight
  split
  · exact State.haltKept_ite fun _ => State.haltKept_ownCompletion _ s
  · exact .refl s

theorem State.haltOk_takeData (head station loc data : Byte) (h : s.HaltOk) :
    (s.takeData head station loc data).HaltOk :=
  State.haltOk_ite (State.haltOk_peerFrame _ h) fun _ => (State.haltKept_ownCompletion _ s).haltOk h

theorem State.haltOk_takeClean (data : Byte) (mark : Bool) (h : s.HaltOk) : (s.takeClean data mark).HaltOk := by
  have handed := (State.haltKept_characterHanded (RawChar.ofClean data mark) s).haltOk h
  have held {a : Handler} : ({ s.characterHanded (RawChar.ofClean data mark) with handler := a } : State).HaltOk :=
    State.haltOk_of_same handed rfl
  unfold State.takeClean
  dsimp only
  split
  · exact held
  · split
    · exact handed
    · split
      · exact held
      · exact held
      · exact State.haltOk_takeData _ _ _ _ h
      · exact handed

theorem State.haltKept_selfTestHanded (raw : RawChar) (s : State) : s.HaltKept (s.selfTestHanded raw) := by
  have handed := State.haltKept_characterHanded raw s
  unfold State.selfTestHanded
  dsimp only
  split
  · exact handed.trans (State.haltKept_ite fun _ => State.haltKept_of_same rfl)
  · exact handed

theorem State.haltOk_characterArrives (raw : RawChar) (h : s.HaltOk) : (s.characterArrives raw).HaltOk := by
  have handed := State.haltKept_characterHanded raw s
  have assembled : (if raw.status = .clean then s.takeClean raw.data raw.mark
      else (s.characterHanded raw).discardAssembly).HaltOk := by
    split
    · exact State.haltOk_takeClean _ _ h
    · exact (handed.trans (State.haltKept_discardAssembly _)).haltOk h
  unfold State.characterArrives
  cases s.mode with
  | straps => exact handed.haltOk h
  | selfTest => exact (State.haltKept_selfTestHanded raw s).haltOk h
  | listen | run | quiet | strapFault => exact assembled

/-! ### Start-up (10) -/

/-- Right after a reset START and SUPPLY are present, and every district is HALTED (R68, R164, R180). -/
theorem State.haltOk_afterReset (s : State) : s.afterReset.HaltOk := by
  refine State.haltOk_iff.mpr ⟨fun k => ⟨fun _ => ?_, nofun⟩, iff_of_true rfl ⟨nofun, nofun⟩, rfl⟩
  rw [show s.afterReset.record k = DistrictRecord.reset from PerDistrict.get_all _ k]
  rfl

/-- A change of mode among those in which START is present (R177). -/
theorem State.haltOk_of_mode (h : s.HaltOk) (before : s.mode ≠ .run ∧ s.mode ≠ .quiet)
    (after : t.mode ≠ .run ∧ t.mode ≠ .quiet) (districts : t.districts = s.districts)
    (halt : t.halt = s.halt) (supply : t.supply = s.supply) : t.HaltOk := by
  obtain ⟨agree, causes⟩ := State.haltOk_iff.mp h
  refine State.haltOk_iff.mpr ⟨fun k => ?_, ?_, ?_⟩
  · rw [show t.record k = s.record k from congrArg (fun q => PerDistrict.get q k) districts, State.halted_congr halt]
    exact agree k
  · rw [halt]
    exact iff_of_true (causes.start.mpr before) after
  · rw [halt, supply]
    exact causes.supply

/-- The strap decoding writes the reversing flag alone of a record (R39). -/
theorem State.haltKept_configureDistrict (c : StationConfig) (k : District) (s : State) :
    (s.record k).HaltKept ((State.configureDistrict c k s).record k) := by
  have flagged :=
    (State.haltKept_modRecord k (fun d => { d with reversing := c.reverses k }) s (.of_eq rfl rfl)).record k
  unfold State.configureDistrict
  dsimp only
  split
  · split <;> exact flagged
  · exact flagged

theorem State.haltOk_takeConfig (c : StationConfig) (straps : s.mode = .straps) (h : s.HaltOk) :
    (s.takeConfig c).HaltOk := by
  have taken : s.HaltKept { s with config := some c } := State.haltKept_of_same rfl
  have configured := taken.trans (State.haltKept_eachDistrict (State.onlyDistrict_configureDistrict c)
    (State.haltKept_configureDistrict c) { s with config := some c })
  refine State.haltOk_of_mode (configured.haltOk h) ?_ ⟨nofun, nofun⟩ rfl rfl rfl
  rw [configured.mode, straps]
  exact ⟨nofun, nofun⟩

theorem State.haltOk_decodeNow (straps : s.mode = .straps) (h : s.HaltOk) : s.decodeNow.HaltOk := by
  have scanning : ({ s with converter := .scan 0 0 } : State).HaltOk := State.haltOk_of_same h rfl
  unfold State.decodeNow
  dsimp only
  split
  · exact State.haltOk_takeConfig _ straps scanning
  · exact State.haltOk_of_mode scanning (by rw [straps]; exact ⟨nofun, nofun⟩) ⟨nofun, nofun⟩ rfl rfl rfl

theorem State.haltOk_strapReading (strap : Fin 6) (round : Fin 4) (code : Code) (h : s.HaltOk) :
    (s.strapReading strap round code).HaltOk := by
  refine State.haltOk_ite h fun straps => ?_
  dsimp only
  split
  · exact State.haltOk_decodeNow straps (State.haltOk_of_same h rfl)
  · exact State.haltOk_of_same h rfl

theorem State.haltOk_endSelfTest (selfTest : s.mode = .selfTest) (h : s.HaltOk) : s.endSelfTest.HaltOk :=
  State.haltOk_of_mode h (by rw [selfTest]; exact ⟨nofun, nofun⟩) ⟨nofun, nofun⟩ rfl rfl rfl

/-- LISTEN ends in QUIET or in RUN, and START is cleared (R188, R189). -/
theorem State.haltOk_endListen (h : s.HaltOk) : s.endListen.HaltOk := by
  obtain ⟨agree, causes⟩ := State.haltOk_iff.mp h
  have listened : ({ s with listen := none } : State).HaltOk := State.haltOk_of_same h rfl
  unfold State.endListen
  dsimp only
  split
  · exact State.haltOk_followUp _ (State.haltOk_enterQuiet listened)
  · refine (State.haltKept_chooseAgain _).haltOk ?_
    exact State.haltOk_clearCause (s := { s with listen := none, mode := .run }) .start agree
      ⟨iff_of_false nofun fun ⟨notRun, _⟩ => notRun rfl, causes.supply⟩

/-! ### Every command, the clock and the step -/

/-- Every command keeps causes, mode and districts in agreement, each by its own meaning. -/
theorem exec_keeps_haltOk (c : Instr) (h : s.HaltOk) (next : exec c s = .next t) : t.HaltOk := by
  have marked (k : District) (f : DistrictRecord → DistrictRecord)
      (own : (s.record k).HaltKept (f (s.record k))) : (s.modRecord k f).HaltOk :=
    (State.haltKept_modRecord k f s own).haltOk h
  have onLine {u : State} (same : State.sameOutsideLine s u) : u.HaltOk :=
    (State.haltKept_of_sameOutsideLine same).haltOk h
  cases c
  all_goals cases Host.Outcome.next.inj next
  case reset => exact State.haltOk_afterReset s
  case strapReading strap round code => exact State.haltOk_strapReading strap round code h
  case currentSample k code => exact (State.haltKept_currentSample k code s).haltOk h
  case supplySample v => exact State.haltOk_supplySample v h
  case probePulseStart k =>
    exact State.haltOk_ite h fun _ => marked k (fun d => { d with phase := .pulse }) (.of_eq rfl rfl)
  case rawInputChange pin level => exact (State.haltKept_setQualifier pin _ s).haltOk h
  case debounceExpiry pin => exact State.haltOk_debounceExpiry pin h
  case breakDriveMinimumEnd => exact (State.haltKept_driveMinimumEnd s).haltOk h
  case coolingExpiry k => exact (State.haltKept_coolingExpires k s).haltOk h
  case settleWindowExpiry k => exact State.haltOk_ite h fun _ => marked k _ (.of_eq rfl rfl)
  case rampKAdvance k => exact (State.haltKept_rampAdvances k s).haltOk h
  case rampCompletion k => exact (State.haltKept_rampCompletes k s).haltOk h
  case contendTimeout k =>
    exact State.haltOk_ite h fun contend =>
      (State.haltKept_enterSwitching (by rw [contend]; exact nofun)).haltOk h
  case confirmTimeout k => exact State.haltOk_confirmRunsOut k h
  case flipWatchEnd k => exact State.haltOk_ite h fun _ => marked k _ (.of_eq rfl rfl)
  case yieldWatchEnd k => exact State.haltOk_ite h fun _ => marked k _ (.of_eq rfl rfl)
  case chatterWindowExpiry k => exact State.haltOk_ite h fun _ => State.haltOk_of_same h rfl
  case pardonWindowEnd k => exact marked k _ (.of_eq rfl rfl)
  case millisecondTick =>
    exact (State.haltKept_mapRecords (t := s.msTick) DistrictRecord.haltKept_tick rfl rfl rfl rfl).haltOk h
  case peerEntryExpiry | floorExpiry | holdoffEnd =>
    exact (State.haltKept_directStart _).haltOk (State.haltOk_of_same h rfl)
  case lampPhaseAdvance => exact State.haltOk_of_same h rfl
  case selftestCharacter raw => exact State.haltOk_ite h fun _ => (State.haltKept_selfTestHanded raw s).haltOk h
  case endOfSelftest => exact State.haltOk_ite h fun selfTest => State.haltOk_endSelfTest selfTest h
  case endOfListen => exact State.haltOk_ite h fun _ => State.haltOk_endListen h
  case characterError raw => exact State.haltOk_characterArrives raw h
  case shortError head => exact State.haltOk_characterArrives _ h
  case cleanCharacter data mark => exact State.haltOk_characterArrives _ h
  case idleGap => exact (State.haltKept_idleGap s).haltOk h
  case idleBoundaryAttempt => exact (State.haltKept_idleBoundary s).haltOk h
  case join idle => exact (State.haltKept_joinEdge _ s).haltOk h
  case arbitrationLoss => exact (State.haltKept_arbitrationLost s).haltOk h
  case driverFault => exact State.haltOk_driverFault h
  case breakDetected => exact State.haltOk_breakDetected h
  case breakEnd => exact onLine (State.sameOutsideLine_breakEnds s)
  case lineFallingEdge idle => exact onLine (State.sameOutsideLine_fallingEdge _ s)
  case startRecheck level => exact onLine (State.sameOutsideLine_startRecheck level s)
  case ownFiCompletion | ownRbCompletion | ownTrCompletion | ownFrameCompletion =>
    exact (State.haltKept_completeInFlight _ s).haltOk h
  all_goals exact State.haltOk_peerFrame _ h

theorem clockStep_keeps_haltOk (h : s.HaltOk) (next : s.clockStep = .next t) : t.HaltOk := by
  unfold State.clockStep at next
  split at next
  · cases Host.Outcome.next.inj next
    exact (State.haltKept_mapRecords (t := s.advance) DistrictRecord.haltKept_advance rfl rfl rfl rfl).haltOk h
  · exact exec_keeps_haltOk _ h next
  · exact exec_keeps_haltOk _ (s := { s with tie := s.tie + 1 }) (State.haltOk_of_same h rfl) next

end Sys2Proof.Machine

open Sys2Proof Sys2Proof.Machine

/-- Settles O56: by the command at the front of the queue of commands, or the clock.  A command sets or clears a cause
together with the mode or the flag that goes with it, and then every district enters or leaves HALTED; every other move
keeps the districts where the halt has them, but that a changeover settled in HALTED ends there by the causes present. -/
theorem stepKeepsHaltOk : Obligations.StepKeepsHaltOk := by
  intro s t h next
  unfold step at next
  split at next
  · exact clockStep_keeps_haltOk h next
  · rename_i c rest _
    exact exec_keeps_haltOk c (s := { s with pending := rest }) (State.haltOk_of_same h rfl) next

end

section
/-! PROOFS. A RESUME/ assertion (R175): the RS behind the end of a halt has room (R132, R170). -/

namespace Sys2Proof.Machine

variable {s t : State} {k : District}

/-! ### What the end of a halt posts -/

theorem State.length_moveOff_le (k : District) (f : DistrictRecord → DistrictRecord) (s : State) :
    (s.moveOff k f).queue.length ≤ s.queue.length := by
  rw [State.queue_moveOff]
  exact State.length_depart_le k s

theorem State.length_lockForRelay_le (k : District) (s : State) :
    (s.lockForRelay k).queue.length ≤ s.queue.length + 1 := by
  have posts := State.length_post_le (s.relayTr k) (s.depart k)
  rw [State.queue_post] at posts
  rw [State.queue_lockForRelay]
  exact posts.trans (Nat.succ_le_succ (State.length_depart_le k s))

/-- A district that leaves HALTED posts its TR at most, for the relay that disagrees (R85, R170). -/
theorem State.length_leaveHalted_le (k : District) (s : State) :
    (s.leaveHalted k).queue.length ≤ s.queue.length + 1 := by
  have moved (f : DistrictRecord → DistrictRecord) : (s.moveOff k f).queue.length ≤ s.queue.length + 1 :=
    Nat.le_succ_of_le (State.length_moveOff_le k f s)
  unfold State.leaveHalted
  dsimp only
  split
  · cases (s.record k).returnClass with
    | queue | cool | dark => exact moved _
    | locked => exact moved DistrictRecord.toLocked
    | probe =>
      cases disagrees : s.relayDisagrees k with
      | false =>
        rw [State.enterProbing_agrees disagrees]
        exact moved _
      | true =>
        rw [State.enterProbing_disagrees disagrees]
        exact (State.length_lockForRelay_le k _).trans (Nat.succ_le_succ (State.length_moveOff_le k _ s))
  · exact Nat.le_succ _

/-- The end of a halt posts one TR of each district at most (R170). -/
theorem State.length_endHalt_le (s : State) : s.endHalt.queue.length ≤ s.queue.length + 4 :=
  State.eachDistrict_induction (P := fun n u => u.queue.length ≤ s.queue.length + n) State.onlyDistrict_leaveHalted s
    (Nat.le_refl _) fun k u _ _ _ sofar => (State.length_leaveHalted_le k u).trans (Nat.succ_le_succ sofar)

/-- A posting moves no district (R132). -/
theorem State.leavesHalted_post (p : Post) (h : s.leavesHalted t k) : s.leavesHalted (t.post p) k := by
  unfold State.leavesHalted at h ⊢
  rw [State.record_post, State.mode_post, State.alert_post]
  exact h

/-! ### The RESUME/ event -/

theorem exec_debounceExpiry_resume (held : (s.qualifier .resume).held.isSome = true)
    (settled : (s.qualifier .resume).settled = some .high) (low : (s.qualifier .resume).raw = .low) :
    exec (.debounceExpiry .resume) s =
      .next (State.followUp s (s.setQualifier .resume (s.qualifier .resume).expired).resumePressed) := by
  rw [exec_debounceExpiry, State.debounceExpiry_held held, settled, low]
  rfl

/-- A RESUME/ is refused while a break is in progress or LINE_STOP is absent (R175). -/
theorem State.resumePressed_refused (refused : s.line.breakInProgress = true ∨ s.halt.lineStop = false) :
    s.resumePressed = s := by
  refine if_neg fun ⟨breakOver, stands⟩ => ?_
  rcases refused with breaks | absent
  · exact nomatch breaks.symm.trans breakOver
  · exact nomatch absent.symm.trans stands

/-- LINE_STOP is cleared, and the RS is posted behind what the end of the halt posts (R175). -/
theorem State.resumePressed_accepted (breakOver : s.line.breakInProgress = false) (stands : s.halt.lineStop = true) :
    s.resumePressed = (s.clearCause .lineStop).post (s.frameFor .rs 0 0) := by
  have config : (s.clearCause .lineStop).config = s.config := by rw [State.clearCause_frame]
  have rs : (s.clearCause .lineStop).rsPost = s.frameFor .rs 0 0 := State.frameFor_congr config .rs 0 0
  exact (if_pos ⟨breakOver, stands⟩).trans (congrArg (fun p => (s.clearCause .lineStop).post p) rs)

/-- A posting to a queue with room is in the queue behind what follows, but for an RB (R132, R156). -/
theorem State.posted_followUp {p : Post} (before : State) (run : s.mode = .run)
    (room : s.queue.length + 1 < Config.NQUEUE) (notRb : p.kind ≠ .rb) :
    ∃ e ∈ (State.followUp before (s.post p)).queue, e.frame = p := by
  obtain ⟨e, rest, posted, frame, _⟩ := State.post_room (p := p) run (Nat.lt_of_succ_lt room)
  have there : e ∈ (s.post p).queue := by
    rw [posted]
    exact (mem_insertByRank e e rest).mpr (Or.inl rfl)
  refine ⟨e, ?_, frame⟩
  rcases State.followUp_in_run before ((State.mode_post p s).trans run) with same | same <;> rw [same]
  · exact there
  · refine State.chooseAgain_keeps_of_room ((State.length_post_le p s).trans_lt room) there ?_
    rwa [frame]

theorem State.mode_resumed (before m : State) (p : Post) :
    (State.followUp before ((m.clearCause .lineStop).post p)).mode = m.mode := by
  rw [State.mode_of_sameOutside (State.sameOutside_followUp before _), State.mode_post, State.clearCause_frame]

/-- Outside RUN nothing that is posted is taken (R132). -/
theorem State.resumed_outside_run {m : State} (before : State) (p : Post) (notRun : m.mode ≠ .run)
    (empty : m.queue = []) : (State.followUp before ((m.clearCause .lineStop).post p)).queue = [] := by
  have ok := State.queueOk_followUp before
    (State.queueOk_post p (State.queueOk_clearCause .lineStop (State.queueOk_of_empty empty)))
  obtain ⟨_, _, outside⟩ := State.queueOk_iff.mp ok
  exact outside (by rwa [State.mode_resumed])

/-- The RS in a queue that had room for it and for what the districts post at the end of the halt (R170, R175). -/
theorem State.resumed_of_room {m : State} (before : State) (run : m.mode = .run) (few : m.queue.length ≤ 2) :
    ∃ e ∈ (State.followUp before ((m.clearCause .lineStop).post (m.frameFor .rs 0 0))).queue,
      e.frame = m.frameFor .rs 0 0 := by
  have mode : (m.clearCause .lineStop).mode = m.mode := by rw [State.clearCause_frame]
  have posts : (m.clearCause .lineStop).queue.length ≤ m.queue.length + 4 := by
    unfold State.clearCause
    dsimp only
    split
    · exact State.length_endHalt_le { m with halt := m.halt.put .lineStop false, haltEnded := true }
    · exact Nat.le_add_right _ _
  refine State.posted_followUp before (mode.trans run) ?_ nofun
  unfold Config.NQUEUE
  omega

/-- Where another cause stands the RS is placed in the queue, and no district moves (R132, R165, R175). -/
theorem State.resumed_in_halt {m : State} (p : Post) (unmoved : s.Unmoved m) (queue : m.queue = s.queue)
    (goesOn : (m.clearCause .lineStop).halted = true) :
    let t := State.followUp s ((m.clearCause .lineStop).post p)
    t.districts = s.districts ∧ (s.QueueOk → s.places p t) := by
  have cleared := State.clearCause_of_halted .lineStop goesOn
  have districts : ((m.clearCause .lineStop).post p).districts = s.districts := by
    rw [State.districts_post, cleared]
    exact unmoved.districts
  have halted : ((m.clearCause .lineStop).post p).halted = true :=
    (State.halted_congr (State.halt_post p _)).trans goesOn
  rw [State.followUp_halted districts halted]
  refine ⟨districts, fun ok => ?_⟩
  rw [cleared]
  refine State.places_of_post ok ?_ fun told => ?_
  · rw [State.queue_post]
    exact State.queueWith_congr unmoved.mode queue p
  · rw [← told]
    exact State.rbDistrict_post_congr (t := { m with halt := m.halt.put .lineStop false }) unmoved.mode queue
      (congrArg RampUnit.rbDistrict unmoved.ramp) p

/-- The last cause cleared lets every district leave HALTED; neither the RS nor what follows keeps one there (R170). -/
theorem State.resumed_leavesHalted {m : State} {p : Post} (unmoved : s.Unmoved m) (relays : m.relays = s.relays)
    (halted : s.halted = true) (ended : (m.clearCause .lineStop).halted = false) (k : District) :
    s.leavesHalted (State.followUp s ((m.clearCause .lineStop).post p)) k := by
  refine State.leavesHalted_followUp s (State.leavesHalted_post p ?_)
  rw [State.clearCause_of_last ((State.halted_congr unmoved.halt).trans halted) ended]
  let cleared : State := { m with halt := m.halt.put .lineStop false, haltEnded := true }
  exact State.leavesHalted_of_same (s := cleared) (congrArg (fun q => PerDistrict.get q k) unmoved.districts.symm)
    (congrArg (fun q => PerDistrict.get q k) relays.symm) (State.leavesHalted_endHalt cleared k)

/-- LINE_STOP stands: the station is halted (R164). -/
theorem State.halted_of_lineStop (stands : s.halt.lineStop = true) : s.halted = true := by
  unfold State.halted
  rw [stands, Bool.or_true, Bool.true_or]

end Sys2Proof.Machine

open Sys2Proof Sys2Proof.Machine

/-- Settles O20: a refused event leaves what the unit reads; an accepted one clears LINE_STOP, posts the RS behind what
the end of the halt posts, and at most a choice or a direct start follows. -/
theorem resumePress : Obligations.ResumePress := by
  intro s held settled low owed
  have expired : (s.qualifier .resume).expired = { settled := some .low, held := none, raw := .low } := by
    unfold Qualifier.expired
    rw [low]
  have next := exec_debounceExpiry_resume held settled low
  rw [expired] at next
  have unmoved := State.unmoved_setQualifier s .resume { settled := some .low, held := none, raw := .low }
  generalize place : s.setQualifier .resume { settled := some .low, held := none, raw := .low } = m at next unmoved ⊢
  have line : m.line = s.line := by rw [← place]; rfl
  have queue : m.queue = s.queue := by rw [← place]; rfl
  have relays : m.relays = s.relays := by rw [← place]; rfl
  refine ⟨fun refused => ?_, fun breakOver stands => ?_⟩
  · rw [next, State.resumePressed_refused (by rwa [line, unmoved.halt]), State.followUp_unmoved unmoved owed]
  · rw [State.resumePressed_accepted (by rwa [line]) (by rwa [unmoved.halt])] at next
    have rs : m.frameFor .rs 0 0 = s.frameFor .rs 0 0 := State.frameFor_congr unmoved.config .rs 0 0
    have follows := State.sameOutside_followUp s ((m.clearCause .lineStop).post (m.frameFor .rs 0 0))
    have halt := (State.halt_of_sameOutside follows).trans (State.halt_post _ _)
    have mode := (State.mode_resumed s m (m.frameFor .rs 0 0)).trans unmoved.mode
    refine ⟨_, next, ?_, fun ended k => ?_, fun _ run few => ?_, fun notRun empty => ?_, fun goesOn => ?_, mode, ?_⟩
    · rw [halt, State.halt_clearCause, unmoved.halt]
      rfl
    · exact State.resumed_leavesHalted unmoved relays (State.halted_of_lineStop stands)
        ((State.halted_congr halt).symm.trans ended) k
    · rw [← rs]
      exact State.resumed_of_room s (unmoved.mode.trans run) (by rwa [queue])
    · exact State.resumed_outside_run s _ (by rwa [unmoved.mode]) (queue.trans empty)
    · rw [← rs]
      exact State.resumed_in_halt _ unmoved queue ((State.halted_congr halt).symm.trans goesOn)
    · rw [State.line_of_sameOutside follows, State.line_post, State.clearCause_frame]
      exact line

end

section
/-! PROOFS. The strap decoding (10): the bands that the readings give, the configuration of six bands, and the entries
to SELFTEST and to STRAP_FAULT behind the 24th reading. -/

namespace Sys2Proof.Machine

variable {s : State} {c : StationConfig} {k : District} {readings : List Reading}

/-! ### The bands of the straps (R181) -/

theorem isCleanReading_iff (code : Code) :
    isCleanReading code = true ↔ 8 ≤ code.toNat % 64 ∧ code.toNat % 64 ≤ 55 := by
  unfold isCleanReading
  rw [Bool.and_eq_true, decide_eq_true_iff, decide_eq_true_iff]
  rfl

/-- A band is four clean readings that all lie in it. -/
theorem bandOfReadings_eq_some_iff {codes : List Code} {b : Nat} :
    bandOfReadings codes = some b ↔
      codes.length = 4 ∧
        ∀ code ∈ codes, code.toNat / 64 = b ∧ 8 ≤ code.toNat % 64 ∧ code.toNat % 64 ≤ 55 := by
  have band (code : Code) : bandOfCode code = code.toNat / 64 := rfl
  unfold bandOfReadings
  split
  · rename_i w x y z
    simp only [List.all_cons, List.all_nil, Bool.and_true, Bool.and_eq_true, isCleanReading_iff, beq_iff_eq, band,
      List.length_cons, List.length_nil, List.forall_mem_cons, List.not_mem_nil, false_imp_iff, implies_true]
    constructor
    · intro given
      split at given
      · rename_i clean
        obtain ⟨⟨cleanW, cleanX, cleanY, cleanZ⟩, sameX, sameY, sameZ⟩ := clean
        cases given
        exact ⟨trivial, ⟨rfl, cleanW⟩, ⟨sameX, cleanX⟩, ⟨sameY, cleanY⟩, ⟨sameZ, cleanZ⟩, trivial⟩
      · cases given
    · rintro ⟨_, ⟨bandW, cleanW⟩, ⟨bandX, cleanX⟩, ⟨bandY, cleanY⟩, ⟨bandZ, cleanZ⟩, _⟩
      rw [if_pos ⟨⟨cleanW, cleanX, cleanY, cleanZ⟩, bandX.trans bandW.symm, bandY.trans bandW.symm,
        bandZ.trans bandW.symm⟩, bandW]
  · rename_i notFour
    refine iff_of_false nofun fun ⟨four, _⟩ => ?_
    match codes, four with
    | [w, x, y, z], _ => exact notFour w x y z rfl

theorem strapHasBand_iff {j : Fin 6} {b : Nat} :
    StrapHasBand readings j b ↔ bandOfReadings (codesOf readings j) = some b :=
  bandOfReadings_eq_some_iff.symm

/-- A configuration is decoded from six straps that each have a band (R181, R182). -/
theorem decodeStraps_eq_some_iff :
    decodeStraps readings = some c ↔
      ∃ b : Fin 6 → Nat, (∀ j, StrapHasBand readings j (b j)) ∧
        configOfBands (b 0) (b 1) (b 2) (b 3) (b 4) (b 5) = some c := by
  simp only [strapHasBand_iff]
  unfold decodeStraps
  constructor
  · intro decoded
    split at decoded
    · rename_i b0 b1 b2 b3 b4 b5 h0 h1 h2 h3 h4 h5
      refine ⟨![b0, b1, b2, b3, b4, b5], fun j => ?_, decoded⟩
      fin_cases j
      exacts [h0, h1, h2, h3, h4, h5]
    · cases decoded
  · rintro ⟨b, bands, config⟩
    simp only [bands]
    exact config

/-- The bands are below 16, so that the configuration holds them as they are, unless ID would be 255 (R182). -/
theorem configOfBands_of_number (b0 b1 b2 b3 b4 b5 : Fin 16) (number : ¬ (b0 = 15 ∧ b1 = 15)) :
    configOfBands b0 b1 b2 b3 b4 b5 =
      some { id := Fin.ofNat 256 (16 * b0.val + b1.val), group := b2, budget := b3.val + 1, trip := b4,
             rev := b5 } := by
  have below : 16 * b0.val + b1.val ≠ Config.IDALL := by
    unfold Config.IDALL
    omega
  unfold configOfBands
  rw [if_neg below, Fin.ofNat_val_eq_self, Fin.ofNat_val_eq_self, Fin.ofNat_val_eq_self]

/-- A strap without a band, or the number 255, refuses the configuration (R181, R182). -/
theorem decodeStraps_refused
    (bad : (∃ j : Fin 6, ∀ b : Fin 16, ¬ StrapHasBand readings j b) ∨
      (StrapHasBand readings 0 15 ∧ StrapHasBand readings 1 15)) :
    decodeStraps readings = none := by
  cases decoded : decodeStraps readings with
  | none => rfl
  | some c =>
    exfalso
    obtain ⟨b, bands, config⟩ := decodeStraps_eq_some_iff.mp decoded
    rcases bad with ⟨j, noBand⟩ | ⟨first, second⟩
    · exact noBand ⟨b j, bandOfReadings_lt (strapHasBand_iff.mp (bands j))⟩ (bands j)
    · have same {j : Fin 6} (full : StrapHasBand readings j 15) : b j = 15 :=
        Option.some.inj ((strapHasBand_iff.mp (bands j)).symm.trans (strapHasBand_iff.mp full))
      rw [same first, same second] at config
      cases config

/-! ### A district at the decoding (R39, R70) -/

theorem StationConfig.reverses_eq (c : StationConfig) (k : District) : c.reverses k = c.rev.val.testBit k.val := by
  rw [Nat.testBit_eq_decide_div_mod_eq]
  rfl

theorem State.record_configureDistrict (c : StationConfig) (k : District) (s : State) :
    (State.configureDistrict c k s).record k = { s.record k with reversing := c.reverses k } := by
  have flagged := State.record_modRecord_self k (fun d => { d with reversing := c.reverses k }) s
  unfold State.configureDistrict
  dsimp only
  split
  · split <;> exact flagged
  · exact flagged

theorem State.relay_configureDistrict_plain (plain : c.reverses k = false) (s : State) :
    (State.configureDistrict c k s).relay k = { s.relay k with pol := some .low } := by
  unfold State.configureDistrict
  dsimp only
  rw [if_neg (ne_true_of_eq_false plain), State.modRelay_eq, State.relay_setRelay_self]
  rfl

theorem State.relay_configureDistrict_reversing {level : Level} (reverses : c.reverses k = true)
    (settled : (s.cnfQ.get k).settled = some level) :
    (State.configureDistrict c k s).relay k = { s.relay k with cnf := some level, pol := some level } := by
  have flagged : ((s.modRecord k (fun d => { d with reversing := c.reverses k })).cnfQ.get k).settled = some level :=
    settled
  unfold State.configureDistrict
  dsimp only
  rw [if_pos reverses, flagged]
  exact State.relay_setRelay_self _ k _

/-- The decoding of a district moves its record and its relay alone. -/
theorem State.configureDistrict_frame (c : StationConfig) (k : District) (s : State) :
    State.configureDistrict c k s =
      { s with districts := (State.configureDistrict c k s).districts,
               relays := (State.configureDistrict c k s).relays } := by
  unfold State.configureDistrict
  dsimp only
  split
  · split <;> rfl
  · rfl

/-! ### The configuration taken (R183, R185) -/

/-- The four districts at the decoding, with the configuration handed on. -/
def State.configured (c : StationConfig) (s : State) : State :=
  { s with config := some c }.eachDistrict (State.configureDistrict c)

theorem State.takeConfig_eq (c : StationConfig) (s : State) : s.takeConfig c = (s.configured c).enterSelfTest c := rfl

theorem State.configured_frame (c : StationConfig) (s : State) :
    s.configured c =
      { s with config := some c, districts := (s.configured c).districts, relays := (s.configured c).relays } := by
  refine State.eachDistrict_keeps
    (P := fun u => u = { s with config := some c, districts := u.districts, relays := u.relays })
    (State.onlyDistrict_configureDistrict c) (fun k u sofar => ?_) rfl
  have frame := State.configureDistrict_frame c k u
  rw [sofar] at frame ⊢
  exact frame

theorem State.record_configured (c : StationConfig) (s : State) (k : District) :
    (s.configured c).record k = { s.record k with reversing := c.reverses k } := by
  obtain ⟨u, record, _, _, _, after, _⟩ :=
    State.record_eachDistrict (State.onlyDistrict_configureDistrict c) { s with config := some c } k
  refine after.trans ((State.record_configureDistrict c k u).trans ?_)
  rw [record]
  rfl

theorem State.relay_configured_plain (plain : c.reverses k = false) (s : State) :
    (s.configured c).relay k = { s.relay k with pol := some .low } := by
  obtain ⟨u, _, _, relay, _, _, _, after⟩ :=
    State.record_eachDistrict (State.onlyDistrict_configureDistrict c) { s with config := some c } k
  refine after.trans ((State.relay_configureDistrict_plain plain u).trans ?_)
  rw [relay]
  rfl

theorem State.relay_configured_reversing {level : Level} (reverses : c.reverses k = true)
    (settled : (s.cnfQ.get k).settled = some level) :
    (s.configured c).relay k = { s.relay k with cnf := some level, pol := some level } := by
  obtain ⟨u, _, _, relay, outside, _, _, after⟩ :=
    State.record_eachDistrict (State.onlyDistrict_configureDistrict c) { s with config := some c } k
  have settled' : (u.cnfQ.get k).settled = some level := by
    rw [outside]
    exact settled
  refine after.trans ((State.relay_configureDistrict_reversing reverses settled').trans ?_)
  rw [relay]
  rfl

/-- The four characters of the self-test frame (R185). -/
theorem StationConfig.chars_selfTestFrame (c : StationConfig) :
    c.selfTestFrame.chars =
      [0x80#8, BitVec.ofNat 8 c.id.val, BitVec.ofNat 8 (16 * c.group.val), BitVec.ofNat 8 (255 - c.id.val)] := rfl

/-! ### The last reading (R4, R5, R183) -/

/-- The 24th reading recorded, with the scan begun. -/
def State.allRead (strap : Fin 6) (round : Fin 4) (code : Code) (s : State) : State :=
  { s with strPins := s.strPins.set strap.val code, readings := recordReading ⟨strap, round, code⟩ s.readings,
           converter := .scan 0 0 }

theorem State.strapReading_accepted {strap : Fin 6} {round : Fin 4} {code : Code} (straps : s.mode = .straps)
    (last : Config.NSTRAP ≤ (recordReading ⟨strap, round, code⟩ s.readings).length)
    (decoded : decodeStraps (recordReading ⟨strap, round, code⟩ s.readings) = some c) :
    s.strapReading strap round code = (s.allRead strap round code).takeConfig c := by
  unfold State.strapReading
  rw [if_pos straps]
  dsimp only
  rw [if_pos last]
  unfold State.decodeNow
  dsimp only
  rw [decoded]
  rfl

theorem State.strapReading_refused {strap : Fin 6} {round : Fin 4} {code : Code} (straps : s.mode = .straps)
    (last : Config.NSTRAP ≤ (recordReading ⟨strap, round, code⟩ s.readings).length)
    (refused : decodeStraps (recordReading ⟨strap, round, code⟩ s.readings) = none) :
    s.strapReading strap round code = (s.allRead strap round code).enterStrapFault := by
  unfold State.strapReading
  rw [if_pos straps]
  dsimp only
  rw [if_pos last]
  unfold State.decodeNow
  dsimp only
  rw [refused]
  rfl

end Sys2Proof.Machine

open Sys2Proof Sys2Proof.Machine

/-- Settles O7: the six bands give the configuration, each district takes its flag and its level, and the self-test
begins. -/
theorem goodStrapsEnterSelftest : Obligations.GoodStrapsEnterSelftest := by
  intro s strap round code b0 b1 b2 b3 b4 b5 straps ⟨last, h0, h1, h2, h3, h4, h5⟩ number
  have number' : 16 * b0.val + b1.val < 256 := by omega
  let c : StationConfig :=
    { id := Fin.ofNat 256 (16 * b0.val + b1.val), group := b2, budget := b3.val + 1, trip := b4, rev := b5 }
  have decoded : decodeStraps (recordReading ⟨strap, round, code⟩ s.readings) = some c := by
    refine decodeStraps_eq_some_iff.mpr ⟨![b0, b1, b2, b3, b4, b5], fun j => ?_,
      configOfBands_of_number b0 b1 b2 b3 b4 b5 number⟩
    fin_cases j
    exacts [h0, h1, h2, h3, h4, h5]
  let read := s.allRead strap round code
  have accepted := State.strapReading_accepted straps last decoded
  rw [State.takeConfig_eq, State.configured_frame] at accepted
  have reverses (k : District) : c.reverses k = b5.val.testBit k.val := c.reverses_eq k
  refine ⟨_, (exec_strapReading strap round code s).trans (congrArg Host.Outcome.next accepted), rfl,
    ⟨c.id, Nat.mod_eq_of_lt number', rfl, congrArg some c.chars_selfTestFrame⟩, fun k => ?_, fun k plain => ?_,
    fun k reversing level settled => ?_, rfl, rfl, rfl, rfl, rfl, rfl⟩
  · exact (congrArg DistrictRecord.reversing (State.record_configured c read k)).trans (reverses k)
  · exact congrArg Relay.pol (State.relay_configured_plain ((reverses k).trans plain) read)
  · have relay := State.relay_configured_reversing (s := read) ((reverses k).trans reversing) settled
    exact ⟨congrArg Relay.pol relay, congrArg Relay.cnf relay, (congrArg Relay.commanded relay).trans rfl⟩

/-- Settles O8: no configuration is decoded, and every POL is driven low. -/
theorem badStrapsEnterStrapFault : Obligations.BadStrapsEnterStrapFault := by
  intro s strap round code straps ⟨last, bad⟩
  have refused := State.strapReading_refused straps last (decodeStraps_refused bad)
  refine ⟨_, (exec_strapReading strap round code s).trans (congrArg Host.Outcome.next refused), rfl, rfl, rfl, rfl,
    fun k => ⟨?_, rfl⟩, rfl⟩
  exact congrArg Relay.pol (PerDistrict.get_map (fun r => { r with pol := some .low }) s.relays k)

end

section
/-! PROOFS. The self-test (10): the comparison of a looped-back character, and the end of SELFTEST. -/

namespace Sys2Proof.Machine

variable {s : State} {c : StationConfig}

/-! ### The comparison (R186) -/

/-- The self-test after a character that is compared with the one sent in its position (R93, R186). -/
def SelfTest.compared (raw : RawChar) (frame : Frame) (test : SelfTest) : SelfTest :=
  let sent := frame.rawChar test.handed
  { test with
    handed := test.handed + 1
    matched := test.matched && (raw.status == .clean && raw.data == sent.data && raw.mark == sent.mark) }

theorem SelfTest.matched_compared (raw : RawChar) (frame : Frame) (test : SelfTest) :
    (test.compared raw frame).matched = true ↔
      test.matched = true ∧ raw.status = .clean ∧ raw.data = frame.chars.getD test.handed 0 ∧
        (raw.mark = true ↔ test.handed = 0) := by
  have data : (frame.rawChar test.handed).data = frame.chars.getD test.handed 0 := rfl
  have mark : (frame.rawChar test.handed).mark = (test.handed == 0) := rfl
  unfold SelfTest.compared
  dsimp only
  rw [data, mark, Bool.and_eq_true, Bool.and_eq_true, Bool.and_eq_true, beq_iff_eq, beq_iff_eq, beq_iff_eq,
    and_assoc, Bool.eq_iff_iff (a := raw.mark), beq_iff_eq]

theorem State.selfTestHanded_configured (config : s.config = some c) (raw : RawChar) :
    s.selfTestHanded raw = (s.characterHanded raw).compareSelfTest raw c.selfTestFrame := by
  unfold State.selfTestHanded
  rw [config]

theorem State.compareSelfTest_few (few : s.selfTest.handed < 4) (raw : RawChar) (frame : Frame) :
    s.compareSelfTest raw frame = { s with selfTest := s.selfTest.compared raw frame } := if_pos few

/-- A character of the first four moves the comparison, and the line that hands it over (R96, R186). -/
theorem State.selfTestHanded_compares (config : s.config = some c) (few : s.selfTest.handed < 4) (raw : RawChar) :
    s.selfTestHanded raw =
      { s with selfTest := s.selfTest.compared raw c.selfTestFrame, line := (s.characterHanded raw).line } := by
  have outside := State.sameOutsideLine_characterHanded raw s
  unfold State.sameOutsideLine at outside
  have few' : (s.characterHanded raw).selfTest.handed < 4 := by
    rw [outside]
    exact few
  rw [State.selfTestHanded_configured config, State.compareSelfTest_few few', outside]

theorem exec_selftestCharacter (selfTest : s.mode = .selfTest) (raw : RawChar) :
    exec (.selftestCharacter raw) s = .next (s.selfTestHanded raw) :=
  congrArg Host.Outcome.next (if_pos selfTest)

/-! ### The end of SELFTEST (R186, R187) -/

theorem SelfTest.passed_iff (test : SelfTest) : test.passed = true ↔ test.handed = 4 ∧ test.matched = true := by
  unfold SelfTest.passed
  rw [Bool.and_eq_true, beq_iff_eq]

/-- The note is set unless the test has passed. -/
theorem State.selfTestNote_endSelfTest (s : State) :
    s.endSelfTest.selfTestNote = true ↔
      s.selfTestNote = true ∨ ¬ (s.selfTest.handed = 4 ∧ s.selfTest.matched = true) := by
  rw [← SelfTest.passed_iff, Bool.not_eq_true, ← Bool.not_eq_true', ← Bool.or_eq_true]
  rfl

/-- The receiver awaits the idle line, or is READY at once on one that is idle (R97). -/
theorem State.phase_awaitIdle (s : State) :
    s.awaitIdle.line.rx.phase = if s.line.idle < 11 then .awaitIdle else .ready := by
  by_cases busy : s.line.idle < 11
  · rw [if_pos busy]
    exact if_neg (Nat.not_le.mpr busy)
  · rw [if_neg busy]
    exact if_pos (Nat.not_lt.mp busy)

theorem exec_endOfSelftest (selfTest : s.mode = .selfTest) : exec .endOfSelftest s = .next s.endSelfTest :=
  congrArg Host.Outcome.next (if_pos selfTest)

end Sys2Proof.Machine

open Sys2Proof Sys2Proof.Machine

/-- Settles O9: a character moves the comparison and the line alone, and the end of SELFTEST is judged by what was
compared. -/
theorem selftestJudged : Obligations.SelftestJudged := by
  intro s raw c selfTest config
  refine ⟨fun few => ?_, ?_⟩
  · have next := exec_selftestCharacter selfTest raw
    rw [State.selfTestHanded_compares config few raw] at next
    exact ⟨_, next, rfl, rfl, SelfTest.matched_compared raw c.selfTestFrame s.selfTest, rfl⟩
  · exact ⟨_, exec_endOfSelftest selfTest, rfl, rfl, State.selfTestNote_endSelfTest s, State.phase_awaitIdle s, rfl,
      rfl, rfl, rfl, rfl, rfl, rfl, rfl⟩

end

section
/-! PROOFS. The end of LISTEN (10): what the districts that leave HALTED keep of the relays, the RB district and the
latch, the entry to RUN with its choice, and the entry to QUIET. -/

namespace Sys2Proof.Machine

variable {s t : State} {k : District}

/-! ### What the end of a halt keeps (R170) -/

theorem State.relay_enterProbing (k : District) (s : State) : (s.enterProbing k).relay k = s.relay k := by
  have moved := State.relay_moveOff k k DistrictRecord.toProbing s
  cases disagrees : s.relayDisagrees k with
  | false =>
    rw [State.enterProbing_agrees disagrees]
    exact moved
  | true =>
    rw [State.enterProbing_disagrees disagrees]
    exact (State.relay_lockForRelay k _).trans moved

theorem State.relays_leaveHalted (k : District) (s : State) : (s.leaveHalted k).relays = s.relays := by
  have own : (s.leaveHalted k).relay k = s.relay k := by
    unfold State.leaveHalted
    dsimp only
    split
    · cases (s.record k).returnClass with
      | queue | cool | dark => exact State.relay_moveOff k k _ s
      | probe => exact State.relay_enterProbing k s
      | locked => exact State.relay_moveOff k k DistrictRecord.toLocked s
    · rfl
  refine PerDistrict.ext_get fun j => ?_
  by_cases same : j = k
  · rw [same]
    exact own
  · exact ((State.onlyDistrict_leaveHalted k s).1 j same).2.2

/-- An RB that overflows leaves no RB district, and no posting makes one (R157). -/
theorem State.rbDistrict_post_none (absent : s.ramp.rbDistrict = none) (p : Post) :
    (s.post p).ramp.rbDistrict = none := by
  unfold State.post
  split
  · dsimp only
    rw [absent, ite_self]
  · exact absent

theorem State.rbDistrict_depart_none (absent : s.ramp.rbDistrict = none) (k : District) :
    (s.depart k).ramp.rbDistrict = none := by
  by_cases queued : (s.record k).state = .queued
  · unfold State.depart State.withdrawRb
    rw [queued]
    show (if s.ramp.rbDistrict = some k then none else s.ramp.rbDistrict) = none
    rw [absent, ite_self]
  · exact (State.rbDistrict_depart queued).trans absent

theorem State.rbDistrict_leaveHalted_none (k : District) (absent : s.ramp.rbDistrict = none) :
    (s.leaveHalted k).ramp.rbDistrict = none := by
  have moved (f : DistrictRecord → DistrictRecord) : (s.moveOff k f).ramp.rbDistrict = none :=
    State.rbDistrict_depart_none absent k
  unfold State.leaveHalted
  dsimp only
  split
  · cases (s.record k).returnClass with
    | queue | cool | dark => exact moved _
    | locked => exact moved DistrictRecord.toLocked
    | probe =>
      cases disagrees : s.relayDisagrees k with
      | false =>
        rw [State.enterProbing_agrees disagrees]
        exact moved _
      | true =>
        rw [State.enterProbing_disagrees disagrees, State.rbDistrict_lockForRelay]
        exact State.rbDistrict_post_none (State.rbDistrict_depart_none (moved _) k) _
  · exact absent

/-! ### A cause cleared -/

/-- What stands with the cause cleared, and is kept by a district that leaves HALTED, stands after it (R165). -/
theorem State.clearCause_keeps {P : State → Prop} {c : HaltCause}
    (start : ∀ ended : Bool, P { s with halt := s.halt.put c false, haltEnded := ended })
    (keeps : ∀ (k : District) (u : State), P u → P (u.leaveHalted k)) : P (s.clearCause c) := by
  unfold State.clearCause
  dsimp only
  split
  · exact State.eachDistrict_keeps State.onlyDistrict_leaveHalted keeps (start true)
  · exact start s.haltEnded

theorem State.relays_clearCause (c : HaltCause) (s : State) : (s.clearCause c).relays = s.relays :=
  State.clearCause_keeps (P := fun u => u.relays = s.relays) (fun _ => rfl)
    fun k u sofar => (State.relays_leaveHalted k u).trans sofar

theorem State.rbDistrict_clearCause_none (c : HaltCause) (absent : s.ramp.rbDistrict = none) :
    (s.clearCause c).ramp.rbDistrict = none :=
  State.clearCause_keeps (P := fun u => u.ramp.rbDistrict = none) (fun _ => absent)
    fun k _ => State.rbDistrict_leaveHalted_none k

/-- The end of a halt posts to an empty queue no more than it has room for (R170). -/
theorem State.room_clearCause (c : HaltCause) (empty : s.queue = []) :
    (s.clearCause c).queue.length < Config.NQUEUE := by
  have few : (s.clearCause c).queue.length ≤ s.queue.length + 4 := by
    unfold State.clearCause
    dsimp only
    split
    · exact State.length_endHalt_le { s with halt := s.halt.put c false, haltEnded := true }
    · exact Nat.le_add_right _ _
  rw [empty] at few
  exact Nat.lt_of_le_of_lt few (by decide)

/-- A cause that was the last one lets every district leave HALTED (R165, R170). -/
theorem State.leavesHalted_clearCause {c : HaltCause} (halted : s.halted = true)
    (ended : (s.clearCause c).halted = false) (k : District) : s.leavesHalted (s.clearCause c) k := by
  rw [State.clearCause_of_last halted ended]
  let cleared : State := { s with halt := s.halt.put c false, haltEnded := true }
  exact State.leavesHalted_of_same (s := cleared) rfl rfl (State.leavesHalted_endHalt cleared k)

/-- Where no halt ends no district moves (R165). -/
theorem State.districts_clearCause {c : HaltCause} (goesOn : s.halted = false ∨ (s.clearCause c).halted = true) :
    (s.clearCause c).districts = s.districts := by
  rcases goesOn with running | halted
  · unfold State.clearCause
    dsimp only
    rw [if_neg fun ⟨halts, _⟩ => nomatch running.symm.trans halts]
  · rw [State.clearCause_of_halted c halted]

/-! ### The entry to RUN (R155, R156, R188) -/

/-- LISTEN is over, with both notes clear: the station is in RUN, with START still present. -/
def State.runEntered (s : State) : State := { s with listen := none, mode := .run }

/-- START is cleared in RUN, which may end the halt, and the unit makes its choice. -/
def State.runStarted (s : State) : State := (s.runEntered.clearCause .start).chooseAgain

theorem State.endListen_of_clear (selfTest : s.selfTestNote = false) (duplicate : s.duplicateNote = false) :
    s.endListen = s.runStarted := by
  have clear : (s.selfTestNote || s.duplicateNote) = false := Bool.or_eq_false_iff.mpr ⟨selfTest, duplicate⟩
  unfold State.endListen
  exact if_neg (ne_true_of_eq_false clear)

/-- The entry to RUN moves the mode, START and LISTEN's timer, and what the end of a halt and the choice move. -/
theorem State.runStarted_frame (s : State) :
    s.runStarted =
      { s with mode := .run, listen := none, halt := s.halt.put .start false,
               haltEnded := (s.runEntered.clearCause .start).haltEnded, districts := s.runStarted.districts,
               engines := s.runStarted.engines, relays := s.runStarted.relays, queue := s.runStarted.queue,
               ramp := s.runStarted.ramp, alert := s.runStarted.alert } := by
  have chosen : State.sameOutsideDistricts (s.runEntered.clearCause .start) s.runStarted :=
    State.sameOutside_chooseAgain _
  have cleared := State.clearCause_frame .start s.runEntered
  generalize s.runStarted = t at chosen ⊢
  generalize s.runEntered.clearCause .start = m at chosen cleared ⊢
  unfold State.sameOutsideDistricts at chosen
  rw [cleared] at chosen
  exact chosen

theorem State.relays_runStarted (s : State) : s.runStarted.relays = s.relays := by
  unfold State.runStarted
  rw [State.chooseAgain_frame]
  exact State.relays_clearCause .start s.runEntered

theorem State.halted_runStarted (s : State) : s.runStarted.halted = (s.runEntered.clearCause .start).halted :=
  State.halted_congr (State.halt_of_sameOutside (State.sameOutside_chooseAgain _))

/-- The choice moves no district: the end of a halt stands as it was behind it. -/
theorem State.leavesHalted_chooseAgain (h : s.leavesHalted t k) : s.leavesHalted t.chooseAgain k := by
  have frame := State.chooseAgain_frame t
  unfold State.leavesHalted at h ⊢
  rw [State.record_chooseAgain, frame]
  exact h

/-- START was the last cause, and every district leaves HALTED (R170, R188). -/
theorem State.leavesHalted_runStarted (halted : s.halted = true) (ended : s.runStarted.halted = false) (k : District) :
    s.leavesHalted s.runStarted k := by
  rw [State.halted_runStarted] at ended
  exact State.leavesHalted_of_same (s := s.runEntered) rfl rfl
    (State.leavesHalted_chooseAgain (State.leavesHalted_clearCause (s := s.runEntered) halted ended k))

theorem State.districts_runStarted (goesOn : s.halted = false ∨ s.runStarted.halted = true) :
    s.runStarted.districts = s.districts := by
  rw [State.halted_runStarted] at goesOn
  unfold State.runStarted
  rw [State.chooseAgain_frame]
  exact State.districts_clearCause (s := s.runEntered) goesOn

/-- From an empty queue with no RB district the QUEUED district that waits longest is offered (R155, R156). -/
theorem State.offersRamp_runStarted (empty : s.queue = []) (absent : s.ramp.rbDistrict = none) {j : District}
    (longest : s.runStarted.waitsLongest j) (below : (s.runStarted.record j).w < Config.WMAX) :
    s.runStarted.offersRamp j := by
  have mode : (s.runEntered.clearCause .start).mode = .run := by
    rw [State.clearCause_frame]
    rfl
  exact State.chooseAgain_offersNext mode (State.rbDistrict_clearCause_none (s := s.runEntered) .start absent)
    (State.room_clearCause (s := s.runEntered) .start empty) longest below

/-! ### The entry to QUIET (R189) -/

/-- LISTEN is over, before the mode changes. -/
def State.listened (s : State) : State := { s with listen := none }

/-- QUIET is entered, which may end the halt, and the direct start is tested. -/
def State.quietStarted (s : State) : State := State.followUp s.listened s.listened.enterQuiet

theorem State.endListen_of_note (noted : s.selfTestNote = true ∨ s.duplicateNote = true) :
    s.endListen = s.quietStarted := by
  unfold State.endListen
  exact if_pos ((Bool.or_eq_true _ _).mpr noted)

/-- What stands at the entry to QUIET, and is kept by a district that leaves HALTED, stands after it. -/
theorem State.enterQuiet_keeps {P : State → Prop} (start : P s.quietEntered)
    (keeps : ∀ (k : District) (u : State), P u → P (u.leaveHalted k)) : P s.enterQuiet := by
  rw [State.enterQuiet_eq]
  split
  · exact State.eachDistrict_keeps State.onlyDistrict_leaveHalted keeps start
  · exact start

theorem State.alert_enterQuiet (s : State) : s.enterQuiet.alert = true :=
  State.enterQuiet_keeps (P := fun u => u.alert = true) rfl State.alert_leaveHalted_keeps

theorem State.rbDistrict_enterQuiet (s : State) : s.enterQuiet.ramp.rbDistrict = none :=
  State.enterQuiet_keeps (P := fun u => u.ramp.rbDistrict = none) rfl fun k _ => State.rbDistrict_leaveHalted_none k

theorem State.mode_enterQuiet (s : State) : s.enterQuiet.mode = .quiet :=
  State.mode_of_sameOutside (State.sameOutside_enterQuiet s)

theorem State.halted_enterQuiet (s : State) : s.enterQuiet.halted = s.quietEntered.halted :=
  State.halted_congr (State.halt_of_sameOutside (State.sameOutside_enterQuiet s))

/-- START was the last cause, and every district leaves HALTED (R170, R189). -/
theorem State.leavesHalted_enterQuiet (halted : s.halted = true) (ended : s.enterQuiet.halted = false) (k : District) :
    s.leavesHalted s.enterQuiet k := by
  rw [State.halted_enterQuiet] at ended
  rw [State.enterQuiet_eq, if_pos ⟨halted, ended⟩]
  exact State.leavesHalted_of_same (s := s.quietEntered) rfl rfl (State.leavesHalted_endHalt s.quietEntered k)

/-- Another cause holds the halt, and no district moves (R165). -/
theorem State.districts_enterQuiet (goesOn : s.enterQuiet.halted = true) : s.enterQuiet.districts = s.districts := by
  rw [State.halted_enterQuiet] at goesOn
  rw [State.enterQuiet_eq, if_neg fun ⟨_, ended⟩ => nomatch goesOn.symm.trans ended]
  rfl

theorem State.sameOutside_quietStarted (s : State) :
    State.sameOutsideDistricts s.listened.quietEntered s.quietStarted :=
  State.sameOutsideDistricts_trans (State.sameOutside_enterQuiet s.listened) (State.sameOutside_followUp _ _)

theorem State.halted_quietStarted (s : State) : s.quietStarted.halted = s.listened.enterQuiet.halted :=
  State.halted_congr (State.halt_of_sameOutside (State.sameOutside_followUp _ _))

/-- The queue of QUIET is empty, and what follows posts nothing to it (R132, R140). -/
theorem State.queue_quietStarted (s : State) : s.quietStarted.queue = [] := by
  have ok : s.quietStarted.QueueOk := State.queueOk_followUp _ (State.queueOk_enterQuiet s.listened)
  obtain ⟨_, _, outside⟩ := State.queueOk_iff.mp ok
  refine outside ?_
  rw [State.mode_of_sameOutside (State.sameOutside_quietStarted s)]
  exact nofun

/-- In QUIET no RB is offered: the direct start is all that follows (R161). -/
theorem State.rbDistrict_quietStarted (s : State) : s.quietStarted.ramp.rbDistrict = none := by
  have starts := (State.startsAtMost_directStart s.listened.enterQuiet).rbDistrict (State.rbDistrict_enterQuiet _)
  have notRun : s.listened.enterQuiet.mode ≠ .run := by
    rw [State.mode_enterQuiet]
    exact nofun
  unfold State.quietStarted
  rcases State.followUp_cases s.listened s.listened.enterQuiet with same | same
  · rw [same]
    exact starts
  · rw [same, State.chooseAgain_outside_run notRun]
    exact starts

theorem State.alert_quietStarted (s : State) : s.quietStarted.alert = true :=
  (State.alert_followUp s.listened _).trans (State.alert_enterQuiet s.listened)

theorem State.leavesHalted_quietStarted (halted : s.halted = true) (ended : s.quietStarted.halted = false)
    (k : District) : s.leavesHalted s.quietStarted k := by
  rw [State.halted_quietStarted] at ended
  exact State.leavesHalted_of_same (s := s.listened) rfl rfl
    (State.leavesHalted_followUp s.listened (State.leavesHalted_enterQuiet (s := s.listened) halted ended k))

theorem State.districts_quietStarted (goesOn : s.quietStarted.halted = true) :
    s.quietStarted.districts = s.districts := by
  rw [State.halted_quietStarted] at goesOn
  have districts := State.districts_enterQuiet goesOn
  unfold State.quietStarted
  rw [State.followUp_halted districts goesOn]
  exact districts

theorem exec_endOfListen (listen : s.mode = .listen) : exec .endOfListen s = .next s.endListen :=
  congrArg Host.Outcome.next (if_pos listen)

end Sys2Proof.Machine

open Sys2Proof Sys2Proof.Machine

/-- Settles O10: with the notes clear START is cleared in RUN and the choice is made; with a note set QUIET is entered,
and at most a direct start follows. -/
theorem endOfListenStartsStation : Obligations.EndOfListenStartsStation := by
  intro s listen
  have next := exec_endOfListen listen
  refine ⟨fun selfTest duplicate => ?_, fun noted => ?_⟩
  · rw [State.endListen_of_clear selfTest duplicate] at next
    have frame := s.runStarted_frame
    exact ⟨_, next, congrArg State.mode frame, congrArg State.halt frame, congrArg State.listen frame,
      State.leavesHalted_runStarted, State.districts_runStarted, (congrArg State.config frame).trans rfl,
      s.relays_runStarted, (congrArg State.line frame).trans rfl,
      fun empty absent _ => State.offersRamp_runStarted empty absent⟩
  · rw [State.endListen_of_note noted] at next
    have same := s.sameOutside_quietStarted
    exact ⟨_, next, State.mode_of_sameOutside same, State.halt_of_sameOutside same, congrArg State.listen same,
      s.queue_quietStarted, s.rbDistrict_quietStarted, s.alert_quietStarted, State.leavesHalted_quietStarted,
      State.districts_quietStarted⟩

end

section
/-! PROOFS. The station modes (10): outside start-up a command leaves the mode and the configuration, but that a driver
fault or a duplicate takes RUN to QUIET; start-up goes from mode to mode by its own commands. -/

namespace Sys2Proof.Machine

variable {s t u : State}

/-! ### The mode outside start-up -/

/-- The configuration stays, and the mode stays or goes from RUN to QUIET (R106, R123, R179). -/
structure State.ModeHeld (s t : State) : Prop where
  mode : t.mode = s.mode ∨ s.mode = .run ∧ t.mode = .quiet
  config : t.config = s.config

theorem State.modeHeld_of_eq (mode : t.mode = s.mode) (config : t.config = s.config) : s.ModeHeld t :=
  ⟨Or.inl mode, config⟩

theorem State.ModeHeld.refl (s : State) : s.ModeHeld s := State.modeHeld_of_eq rfl rfl

theorem State.ModeHeld.trans (h : s.ModeHeld t) (h' : t.ModeHeld u) : s.ModeHeld u := by
  refine ⟨?_, h'.config.trans h.config⟩
  rcases h.mode with same | ⟨run, quiet⟩
  · rw [← same]
    exact h'.mode
  · rcases h'.mode with same' | ⟨run', _⟩
    · exact Or.inr ⟨run, same'.trans quiet⟩
    · exact nomatch quiet.symm.trans run'

theorem State.Unmoved.modeHeld (unmoved : s.Unmoved t) : s.ModeHeld t :=
  State.modeHeld_of_eq unmoved.mode unmoved.config

theorem State.modeHeld_of_line (same : State.sameOutsideLine s t) : s.ModeHeld t :=
  (State.unmoved_of_sameOutsideLine same).modeHeld

theorem State.modeHeld_of_sameOutside (same : State.sameOutsideDistricts s t) : s.ModeHeld t :=
  State.modeHeld_of_eq (State.mode_of_sameOutside same) (State.config_of_sameOutside same)

theorem State.modeHeld_of_onlyDistrict {k : District} (only : State.onlyDistrict k s t) : s.ModeHeld t :=
  State.modeHeld_of_sameOutside only.2

/-- Where a condition holds the state moves on, and else it stays. -/
theorem State.modeHeld_ite {p : Prop} [Decidable p] (moved : p → s.ModeHeld t) : s.ModeHeld (if p then t else s) := by
  split
  · exact moved ‹p›
  · exact .refl s

theorem State.modeHeld_post (p : Post) (s : State) : s.ModeHeld (s.post p) :=
  State.modeHeld_of_eq (State.mode_post p s) (State.config_post p s)

theorem State.modeHeld_setCause (c : HaltCause) (s : State) : s.ModeHeld (s.setCause c) := by
  rw [State.setCause_frame]
  exact State.modeHeld_of_eq rfl rfl

theorem State.modeHeld_clearCause (c : HaltCause) (s : State) : s.ModeHeld (s.clearCause c) := by
  rw [State.clearCause_frame]
  exact State.modeHeld_of_eq rfl rfl

theorem State.modeHeld_directStart (s : State) : s.ModeHeld s.directStart :=
  State.modeHeld_of_sameOutside (State.sameOutside_directStart s)

theorem State.modeHeld_followUp (before s : State) : s.ModeHeld (State.followUp before s) :=
  State.modeHeld_of_sameOutside (State.sameOutside_followUp before s)

theorem State.config_enterQuiet (s : State) : s.enterQuiet.config = s.config :=
  (State.config_of_sameOutside (State.sameOutside_enterQuiet s)).trans rfl

/-- QUIET is entered from RUN (R189). -/
theorem State.modeHeld_enterQuiet (run : s.mode = .run) : s.ModeHeld s.enterQuiet :=
  ⟨Or.inr ⟨run, State.mode_enterQuiet s⟩, State.config_enterQuiet s⟩

/-! ### Samples, inputs and timers (01 to 04) -/

theorem State.modeHeld_currentSample (k : District) (code : Code) (s : State) :
    s.ModeHeld (s.currentSample k code) := by
  have taken : s.ModeHeld { s with isenPins := s.isenPins.set k code, converter := s.converter.handedOn k.val } :=
    State.modeHeld_of_eq rfl rfl
  unfold State.currentSample
  split
  · exact .refl s
  · dsimp only
    split
    · exact (taken.trans (State.modeHeld_of_onlyDistrict (State.onlyDistrict_treatSample k _ code _))).trans
        (State.modeHeld_followUp s _)
    · exact taken

theorem State.modeHeld_supplySample (v : Code) (s : State) : s.ModeHeld (s.supplySample v) := by
  have taken (m : SupplyMonitor) : s.ModeHeld (s.supplyTaken v m) := State.modeHeld_of_eq rfl rfl
  unfold State.supplySample
  split
  · exact .refl s
  · dsimp only
    split
    · exact ((taken _).trans (State.modeHeld_setCause .supply _)).trans (State.modeHeld_followUp s _)
    · split
      · exact ((taken _).trans (State.modeHeld_clearCause .supply _)).trans (State.modeHeld_followUp s _)
      · exact taken _

theorem State.modeHeld_resumePressed (s : State) : s.ModeHeld s.resumePressed :=
  State.modeHeld_ite fun _ => (State.modeHeld_clearCause .lineStop s).trans (State.modeHeld_post _ _)

theorem State.modeHeld_releasePressed (s : State) : s.ModeHeld s.releasePressed := by
  have steady := (State.steady_releaseAll s).trans (State.steady_clearAlert _)
  have released := State.modeHeld_of_eq steady.mode steady.config
  unfold State.releasePressed
  split
  · exact .refl s
  · exact .refl s
  all_goals exact released

theorem State.modeHeld_deliver (pin : InputPin) (before : Option Level) (level : Level) (s : State) :
    s.ModeHeld (s.deliver pin before level) := by
  unfold State.deliver
  cases pin with
  | stop =>
    dsimp only
    split
    · exact (State.startBreakDriver_unmoved s).modeHeld.trans (State.modeHeld_setCause .lineStop _)
    · exact State.modeHeld_of_line (State.sameOutsideLine_stopReleased s)
  | resume => exact State.modeHeld_ite fun _ => State.modeHeld_resumePressed s
  | release => exact State.modeHeld_ite fun _ => State.modeHeld_releasePressed s
  | cnf k => exact State.modeHeld_of_onlyDistrict (State.onlyDistrict_cnfDelivered k level s)

theorem State.modeHeld_debounceExpiry (pin : InputPin) (s : State) : s.ModeHeld (s.debounceExpiry pin) :=
  State.modeHeld_ite fun _ =>
    ((State.unmoved_setQualifier s pin _).modeHeld.trans (State.modeHeld_deliver pin _ _ _)).trans
      (State.modeHeld_followUp s _)

theorem State.modeHeld_coolingExpires (k : District) (s : State) : s.ModeHeld (s.coolingExpires k) :=
  State.modeHeld_ite fun _ => State.modeHeld_of_onlyDistrict
    (State.onlyDistrict_trans (State.onlyDistrict_modRecord k _ s) (State.onlyDistrict_enterProbing k _))

theorem State.modeHeld_rampCompletes (k : District) (s : State) : s.ModeHeld (s.rampCompletes k) :=
  State.modeHeld_ite fun _ =>
    (State.modeHeld_of_onlyDistrict (State.onlyDistrict_completeRamp k s)).trans (State.modeHeld_followUp s _)

theorem State.modeHeld_rampAdvances (k : District) (s : State) : s.ModeHeld (s.rampAdvances k) := by
  refine State.modeHeld_ite fun _ => ?_
  split
  · exact State.modeHeld_of_onlyDistrict (State.onlyDistrict_modRecord k _ s)
  · exact State.modeHeld_rampCompletes k s

/-! ### The peer line and its frames (05, 06) -/

theorem State.modeHeld_driverFault (s : State) : s.ModeHeld s.driverFault := by
  refine State.modeHeld_ite fun ⟨run, _⟩ => ?_
  have shown := State.unmoved_endShown .high s
  exact (shown.modeHeld.trans (State.modeHeld_enterQuiet (shown.mode.trans run))).trans (State.modeHeld_followUp s _)

theorem State.modeHeld_breakDetected (s : State) : s.ModeHeld s.breakDetected := by
  have freed := (State.unmoved_endShown .low s).trans (State.unmoved_modLine (fun l =>
    { l.notIdle with was := .low, dominant := Config.tBREAK, breakInProgress := true, breakSeen := true }) _)
  have awaits (u : State) : u.ModeHeld u.awaitIdle.discardAssembly := State.modeHeld_of_eq rfl rfl
  exact ((freed.modeHeld.trans (awaits _)).trans (State.modeHeld_setCause .lineStop _)).trans
    (State.modeHeld_followUp s _)

theorem State.modeHeld_addressed (loc : Where) {f : District → State → State}
    (only : ∀ (k : District) (s : State), State.onlyDistrict k s (f k s)) (s : State) :
    s.ModeHeld (s.addressed loc f) :=
  State.modeHeld_of_sameOutside (State.sameOutside_addressed only s)

theorem State.modeHeld_posts (posts : List Post) (s : State) : s.ModeHeld (posts.foldl (fun s p => s.post p) s) := by
  induction posts generalizing s with
  | nil => exact .refl s
  | cons p rest ih => exact (State.modeHeld_post p s).trans (ih (s.post p))

theorem State.modeHeld_dispatchPeer (f : Frame) (s : State) : s.ModeHeld (s.dispatchPeer f) := by
  unfold State.dispatchPeer
  cases f.post.kind <;> dsimp only
  case fi => exact State.modeHeld_of_sameOutside (State.sameOutside_intentOfGroup none s)
  case tr => split <;> exact State.modeHeld_of_eq rfl rfl
  case re => exact State.modeHeld_of_eq rfl rfl
  case rb => exact State.modeHeld_of_eq rfl rfl
  case rs => exact State.modeHeld_ite fun _ => State.modeHeld_clearCause .lineStop s
  case hd =>
    split
    · exact State.modeHeld_addressed _ State.onlyDistrict_holdSet s
    · exact State.modeHeld_addressed _ State.onlyDistrict_holdClear s
  case rl => exact State.modeHeld_addressed _ State.onlyDistrict_release s
  case sq => exact State.modeHeld_posts _ s
  all_goals exact .refl s

/-- A duplicate takes RUN to QUIET, and is noted in LISTEN (R123). -/
theorem State.modeHeld_duplicateReport (s : State) : s.ModeHeld s.duplicateReport := by
  unfold State.duplicateReport
  split
  · exact State.modeHeld_enterQuiet ‹s.mode = .run›
  · exact State.modeHeld_of_eq rfl rfl
  all_goals exact .refl s

theorem State.modeHeld_frameComplete (data : Byte) (s : State) : s.ModeHeld (s.frameComplete data) :=
  (State.unmoved_of_onlyLine (State.onlyLine_frameComplete data s)).modeHeld

theorem State.modeHeld_peerFrame (f : Frame) (s : State) : s.ModeHeld (s.peerFrame f) := by
  have done := State.modeHeld_frameComplete f.post.data s
  refine State.modeHeld_ite fun _ => ?_
  dsimp only
  split
  · exact done
  · exact (done.trans (State.modeHeld_duplicateReport _)).trans (State.modeHeld_followUp s _)
  · exact (done.trans (State.modeHeld_dispatchPeer f _)).trans (State.modeHeld_followUp s _)

theorem State.modeHeld_dispatchOwn (f : Frame) (s : State) : s.ModeHeld (s.dispatchOwn f) := by
  unfold State.dispatchOwn
  cases f.post.kind with
  | fi => exact State.modeHeld_of_sameOutside (State.sameOutside_intentOfGroup _ s)
  | rb => exact State.modeHeld_of_onlyDistrict (State.onlyDistrict_recheck _ s)
  | tr => exact State.modeHeld_ite fun _ => State.modeHeld_of_eq rfl rfl
  | re | rs | st | hd | rl | sq | unknown _ => exact .refl s

theorem State.modeHeld_ownCompletion (f : Frame) (s : State) : s.ModeHeld (s.ownCompletion f) := by
  have idle : s.ModeHeld ((s.settleAttempt true).modLine (fun l => { l with tx := none })) :=
    State.modeHeld_of_eq rfl rfl
  have freed : s.ModeHeld (if s.sentAll then (s.settleAttempt true).modLine (fun l => { l with tx := none })
      else ((s.settleAttempt true).modLine (fun l => { l with tx := none })).showLine .high) := by
    split
    · exact idle
    · exact idle.trans (State.unmoved_showLine .high _).modeHeld
  have done := (freed.trans (State.modeHeld_frameComplete f.post.data _)).trans (State.modeHeld_dispatchOwn f _)
  unfold State.ownCompletion
  dsimp only
  split
  · exact (done.trans (State.modeHeld_of_sameOutside (State.sameOutside_chooseAgain _))).trans
      (State.modeHeld_directStart _)
  · exact done.trans (State.modeHeld_followUp s _)

theorem State.modeHeld_completeInFlight (about : Kind → Bool) (s : State) :
    s.ModeHeld (s.completeInFlight about) := by
  unfold State.completeInFlight
  split
  · exact State.modeHeld_ite fun _ => State.modeHeld_ownCompletion _ s
  · exact .refl s

/-! ### Characters (05, 06) -/

theorem State.modeHeld_characterHanded (raw : RawChar) (s : State) : s.ModeHeld (s.characterHanded raw) :=
  (State.unmoved_characterHanded raw s).modeHeld

theorem State.modeHeld_takeClean (data : Byte) (mark : Bool) (s : State) : s.ModeHeld (s.takeClean data mark) := by
  have handed := State.modeHeld_characterHanded (RawChar.ofClean data mark) s
  have held (a : Handler) : s.ModeHeld { s.characterHanded (RawChar.ofClean data mark) with handler := a } :=
    handed.trans (State.modeHeld_of_eq rfl rfl)
  unfold State.takeClean
  dsimp only
  split
  · exact held _
  · split
    · exact handed
    · split
      · exact held _
      · exact held _
      · unfold State.takeData
        dsimp only
        split
        · exact State.modeHeld_ownCompletion _ s
        · exact State.modeHeld_peerFrame _ s
      · exact handed

theorem State.modeHeld_selfTestHanded (raw : RawChar) (s : State) : s.ModeHeld (s.selfTestHanded raw) := by
  have handed := State.modeHeld_characterHanded raw s
  cases config : s.config with
  | none =>
    unfold State.selfTestHanded
    rw [config]
    exact handed
  | some c =>
    rw [State.selfTestHanded_configured config]
    exact handed.trans (State.modeHeld_ite fun _ => State.modeHeld_of_eq rfl rfl)

theorem State.modeHeld_characterArrives (raw : RawChar) (s : State) : s.ModeHeld (s.characterArrives raw) := by
  have handed := State.modeHeld_characterHanded raw s
  have assembled : s.ModeHeld (if raw.status = .clean then s.takeClean raw.data raw.mark
      else (s.characterHanded raw).discardAssembly) := by
    split
    · exact State.modeHeld_takeClean _ _ s
    · exact handed.trans (State.modeHeld_of_eq rfl rfl)
  unfold State.characterArrives
  split
  · exact handed
  · exact State.modeHeld_selfTestHanded raw s
  all_goals exact assembled

/-! ### Start-up (10) -/

/-- STRAPS ends in SELFTEST or in STRAP_FAULT (R183). -/
theorem State.mode_strapReading (strap : Fin 6) (round : Fin 4) (code : Code) (straps : s.mode = .straps) :
    let m := (s.strapReading strap round code).mode
    m = .straps ∨ m = .selfTest ∨ m = .strapFault := by
  by_cases last : Config.NSTRAP ≤ (recordReading ⟨strap, round, code⟩ s.readings).length
  · cases decoded : decodeStraps (recordReading ⟨strap, round, code⟩ s.readings) with
    | some c =>
      rw [State.strapReading_accepted straps last decoded]
      exact Or.inr (Or.inl rfl)
    | none =>
      rw [State.strapReading_refused straps last decoded]
      exact Or.inr (Or.inr rfl)
  · rw [State.strapReading_before_last straps (Nat.not_le.mp last)]
    exact Or.inl straps

theorem State.config_endListen (s : State) : s.endListen.config = s.config := by
  by_cases noted : s.selfTestNote = true ∨ s.duplicateNote = true
  · rw [State.endListen_of_note noted]
    exact (State.config_of_sameOutside s.sameOutside_quietStarted).trans rfl
  · obtain ⟨selfTest, duplicate⟩ := not_or.mp noted
    rw [State.endListen_of_clear (Bool.eq_false_of_not_eq_true selfTest) (Bool.eq_false_of_not_eq_true duplicate)]
    exact (congrArg State.config s.runStarted_frame).trans rfl

/-! ### Every command -/

/-- What a command can do to the mode and the configuration (R179, R183, R187 to R190). -/
inductive State.ModeStep (c : Instr) (s t : State) : Prop where
  | held (kept : s.ModeHeld t)
  | reset (resets : c = .reset) (straps : t.mode = .straps)
  | decoded (straps : s.mode = .straps) (decodes : t.mode = .straps ∨ t.mode = .selfTest ∨ t.mode = .strapFault)
  | tested (selfTest : s.mode = .selfTest) (listen : t.mode = .listen) (config : t.config = s.config)
  | listened (listen : s.mode = .listen) (ends : c = .endOfListen) (config : t.config = s.config)

/-- Every command moves the mode in one of these ways, each by its own meaning. -/
theorem exec_modeStep (c : Instr) (next : exec c s = .next t) : s.ModeStep c t := by
  have ramped (f : RampUnit → RampUnit) : s.ModeHeld (s.modRamp f) := State.modeHeld_of_eq rfl rfl
  cases c
  all_goals cases Host.Outcome.next.inj next
  case reset => exact .reset rfl rfl
  case strapReading strap round code =>
    by_cases straps : s.mode = .straps
    · exact .decoded straps (State.mode_strapReading strap round code straps)
    · rw [State.strapReading_outside_straps strap round code straps]
      exact .held (.refl s)
  case endOfSelftest =>
    by_cases selfTest : s.mode = .selfTest
    · rw [if_pos selfTest]
      exact .tested selfTest rfl rfl
    · rw [if_neg selfTest]
      exact .held (.refl s)
  case endOfListen =>
    by_cases listen : s.mode = .listen
    · rw [if_pos listen]
      exact .listened listen rfl (State.config_endListen s)
    · rw [if_neg listen]
      exact .held (.refl s)
  all_goals refine .held ?_
  case currentSample k code => exact State.modeHeld_currentSample k code s
  case supplySample v => exact State.modeHeld_supplySample v s
  case rawInputChange pin level => exact (State.unmoved_setQualifier s pin _).modeHeld
  case debounceExpiry pin => exact State.modeHeld_debounceExpiry pin s
  case breakDriveMinimumEnd => exact (State.unmoved_driveMinimumEnd s).modeHeld
  case coolingExpiry k => exact State.modeHeld_coolingExpires k s
  case rampKAdvance k => exact State.modeHeld_rampAdvances k s
  case rampCompletion k => exact State.modeHeld_rampCompletes k s
  case contendTimeout k =>
    exact State.modeHeld_ite fun _ => State.modeHeld_of_onlyDistrict (State.onlyDistrict_enterSwitching k s)
  case confirmTimeout k => exact State.modeHeld_of_onlyDistrict (State.onlyDistrict_confirmRunsOut k s)
  case probePulseStart | settleWindowExpiry | flipWatchEnd | yieldWatchEnd | chatterWindowExpiry =>
    exact State.modeHeld_ite fun _ => State.modeHeld_of_eq rfl rfl
  case pardonWindowEnd | millisecondTick | lampPhaseAdvance => exact State.modeHeld_of_eq rfl rfl
  case peerEntryExpiry | floorExpiry | holdoffEnd =>
    exact State.ModeHeld.trans (ramped _) (State.modeHeld_directStart _)
  case selftestCharacter raw => exact State.modeHeld_ite fun _ => State.modeHeld_selfTestHanded raw s
  case characterError | shortError | cleanCharacter => exact State.modeHeld_characterArrives _ s
  case idleGap => exact (State.unmoved_idleGap s).modeHeld
  case idleBoundaryAttempt => exact (State.unmoved_idleBoundary s).modeHeld
  case join idle => exact (State.unmoved_joinEdge _ s).modeHeld
  case arbitrationLoss => exact (State.unmoved_arbitrationLost s).modeHeld
  case driverFault => exact State.modeHeld_driverFault s
  case breakDetected => exact State.modeHeld_breakDetected s
  case breakEnd => exact State.modeHeld_of_line (State.sameOutsideLine_breakEnds s)
  case lineFallingEdge idle => exact State.modeHeld_of_line (State.sameOutsideLine_fallingEdge _ s)
  case startRecheck level => exact State.modeHeld_of_line (State.sameOutsideLine_startRecheck level s)
  case ownFiCompletion | ownRbCompletion | ownTrCompletion | ownFrameCompletion =>
    exact State.modeHeld_completeInFlight _ s
  all_goals exact State.modeHeld_peerFrame _ s

end Sys2Proof.Machine

open Sys2Proof Sys2Proof.Machine

/-- Settles O60: by the ways in which a command can move the mode. -/
theorem modeTransitions : Obligations.ModeTransitions := by
  intro s t c next
  cases exec_modeStep c next with
  | held kept =>
    refine ⟨fun run => ?_, fun quiet => ?_, fun fault => ?_, fun _ => Or.inl kept.config⟩ <;>
      rcases kept.mode with same | ⟨wasRun, nowQuiet⟩
    · exact Or.inl (same.symm.trans run)
    · exact Or.inl wasRun
    · exact Or.inl (same.trans quiet)
    · exact Or.inl nowQuiet
    · exact Or.inl (same.trans fault)
    · exact (nomatch fault.symm.trans wasRun)
  | reset resets straps =>
    exact ⟨fun run => (nomatch straps.symm.trans run), fun _ => Or.inr resets, fun _ => Or.inr resets,
      fun _ => Or.inr (Or.inl resets)⟩
  | decoded straps decodes =>
    refine ⟨fun run => ?_, fun quiet => (nomatch straps.symm.trans quiet),
      fun fault => (nomatch straps.symm.trans fault), fun _ => Or.inr (Or.inr straps)⟩
    rw [run] at decodes
    rcases decodes with never | never | never <;> cases never
  | tested selfTest listen config =>
    exact ⟨fun run => (nomatch listen.symm.trans run), fun quiet => (nomatch selfTest.symm.trans quiet),
      fun fault => (nomatch selfTest.symm.trans fault), fun _ => Or.inl config⟩
  | listened listen ends config =>
    exact ⟨fun _ => Or.inr ⟨listen, ends⟩, fun quiet => (nomatch listen.symm.trans quiet),
      fun fault => (nomatch listen.symm.trans fault), fun _ => Or.inl config⟩

end

section
/-! PROOFS. The status reply (11): postings of fresh frames to a queue with room add just those frames, and the four ST
frames of a snapshot are fresh for one another. -/

namespace Sys2Proof.Machine

variable {s : State}

/-! ### Postings that replace nothing -/

/-- A queue with room takes a frame that replaces none of its own as a new WAITING entry (R132). -/
theorem postInto_fresh {p : Post} {q : List Entry} (room : q.length < Config.NQUEUE)
    (fresh : ∀ x ∈ q, p.replaces x.frame = false) :
    postInto p q = { queue := insertByRank p.waiting q, rbLost := false } := by
  have none : q.find? (fun e => p.replaces e.frame) = none :=
    List.find?_eq_none.mpr fun x there => Bool.eq_false_iff.mp (fresh x there)
  unfold postInto
  rw [none]
  exact if_pos room

theorem State.post_fresh {p : Post} (run : s.mode = .run) (room : s.queue.length < Config.NQUEUE)
    (fresh : ∀ x ∈ s.queue, p.replaces x.frame = false) :
    s.post p = { s with queue := insertByRank p.waiting s.queue } := by
  unfold State.post
  rw [if_pos run, postInto_fresh room fresh]
  rfl

/-- A queue with room for some frames, of which none replaces another nor one of its own, takes each of them as a new
WAITING entry, and nothing else moves (R132). -/
theorem State.posts_fresh (posts : List Post) (run : s.mode = .run)
    (room : s.queue.length + posts.length ≤ Config.NQUEUE)
    (fresh : ∀ p ∈ posts, ∀ x ∈ s.queue, p.replaces x.frame = false)
    (apart : posts.Pairwise (fun held p => p.replaces held = false)) :
    ∃ q : List Entry, posts.foldl (fun s p => s.post p) s = { s with queue := q } ∧
      q.Perm (posts.map Post.waiting ++ s.queue) := by
  induction posts generalizing s with
  | nil => exact ⟨s.queue, rfl, .refl _⟩
  | cons p rest ih =>
    obtain ⟨first, others⟩ := List.pairwise_cons.mp apart
    rw [List.length_cons] at room
    have added := perm_insertByRank p.waiting s.queue
    have freshAfter : ∀ r ∈ rest, ∀ x ∈ insertByRank p.waiting s.queue, r.replaces x.frame = false := by
      intro r later x there
      rcases (mem_insertByRank _ _ _).mp there with rfl | old
      · exact first r later
      · exact fresh r (List.mem_cons_of_mem p later) x old
    have roomAfter : (insertByRank p.waiting s.queue).length + rest.length ≤ Config.NQUEUE := by
      rw [length_insertByRank]
      omega
    obtain ⟨q, posted, perm⟩ :=
      ih (s := { s with queue := insertByRank p.waiting s.queue }) run roomAfter freshAfter others
    refine ⟨q, ?_, perm.trans ((added.append_left _).trans List.perm_middle)⟩
    rw [List.foldl_cons, State.post_fresh run (by omega) (fresh p List.mem_cons_self)]
    exact posted

/-! ### The snapshot (R199, R200) -/

theorem mem_allDistricts (k : District) : k ∈ allDistricts := by
  fin_cases k <;> decide

/-- ST frames of different districts do not replace one another (R132). -/
theorem State.replaces_stPost_of_ne {j k : District} (other : j ≠ k) :
    (s.stPost k).replaces (s.stPost j) = false := by
  refine Bool.eq_false_iff.mpr fun replaces => ?_
  obtain ⟨_, sameWhere | rb⟩ := (Post.replaces_iff _ (s.stPost j).waiting).mp replaces
  · exact other (congrArg Where.district sameWhere)
  · cases rb

theorem State.statusPosts_apart (s : State) : s.statusPosts.Pairwise (fun held p => p.replaces held = false) := by
  have distinct : allDistricts.Pairwise (· ≠ ·) := by decide
  exact List.pairwise_map.mpr (distinct.imp fun other => State.replaces_stPost_of_ne other)

/-- A queue without an ST holds nothing that the snapshot replaces. -/
theorem State.statusPosts_fresh {p : Post} {x : Entry} (posted : p ∈ s.statusPosts) (notSt : x.frame.kind ≠ .st) :
    p.replaces x.frame = false := by
  obtain ⟨k, _, rfl⟩ := List.mem_map.mp posted
  exact Bool.eq_false_iff.mpr fun replaces => notSt ((Post.replaces_iff _ x).mp replaces).1

theorem State.dispatchPeer_sq (s : State) {f : Frame} (sq : f.post.kind = .sq) :
    s.dispatchPeer f = s.statusPosts.foldl (fun s p => s.post p) s := by
  unfold State.dispatchPeer
  rw [sq]

/-! ### What an ST says -/

/-- CB_FLOOR is set by a floor below B (R200). -/
theorem State.toNat_floorInForce {c : StationConfig} (config : s.config = some c) :
    s.floorInForce.toNat = if s.ramp.floor.map (fun f => decide (f.value < c.budget)) = some true then 1 else 0 := by
  have budget : s.budget = c.budget := by
    unfold State.budget
    rw [config]
  unfold State.floorInForce
  rw [budget]
  cases s.ramp.floor with
  | none => rfl
  | some f => by_cases below : f.value < c.budget <;> simp [below]

/-- The four condition bits are the whole nibble (R200). -/
theorem State.conditionBits_lt (s : State) : s.conditionBits < 16 := by
  have stop := Bool.toNat_lt s.halt.lineStop
  have supply := Bool.toNat_lt s.halt.supply
  have alert := Bool.toNat_lt s.alert
  have floor := Bool.toNat_lt s.floorInForce
  unfold State.conditionBits Config.CB_STOP Config.CB_SUPPLY Config.CB_ALERT Config.CB_FLOOR
  omega

theorem State.val_prio_stPost {c : StationConfig} (config : s.config = some c) (k : District) :
    (s.stPost k).prio.val =
      (if s.halt.lineStop then 8 else 0) + (if s.halt.supply then 4 else 0) + (if s.alert then 2 else 0) +
        (if s.ramp.floor.map (fun f => decide (f.value < c.budget)) = some true then 1 else 0) := by
  have whole : (s.stPost k).prio.val = s.conditionBits := Nat.mod_eq_of_lt s.conditionBits_lt
  have weighed (weight : Nat) (b : Bool) : weight * b.toNat = if b then weight else 0 := by
    cases b <;> simp
  rw [whole, ← State.toNat_floorInForce config]
  unfold State.conditionBits
  rw [weighed, weighed, weighed]
  exact congrArg _ (Nat.one_mul _)

theorem DistrictState.code_le (d : DistrictState) : d.code ≤ 9 := by
  cases d <;> decide

theorem FaultKind.code_le (f : FaultKind) : f.code ≤ 6 := by
  cases f <;> decide

/-- State code and fault code fit the DATA character (R199). -/
theorem State.toNat_data_stPost (s : State) (k : District) :
    (s.stPost k).data.toNat = 16 * (s.record k).state.code + (s.record k).lastFault.code := by
  have state := (s.record k).state.code_le
  have fault := (s.record k).lastFault.code_le
  exact (BitVec.toNat_ofNat _ _).trans (Nat.mod_eq_of_lt (by omega))

theorem State.loc_stPost {c : StationConfig} (config : s.config = some c) (k : District) :
    (s.stPost k).loc = { group := c.group, district := k, all := false, set := false } := by
  unfold State.stPost State.whereOf State.group
  rw [config]

end Sys2Proof.Machine

open Sys2Proof Sys2Proof.Machine

/-- Settles O48: the snapshot is posted to a queue that has room and holds no ST, and in RUN nothing follows a command
that moves no district. -/
theorem statusQueryAnswered : Obligations.StatusQueryAnswered := by
  intro s b c run config peer target room noSt
  have targeted : targets c.id b.data = true := by
    rcases target with h | h <;> simp [targets, h, Config.IDALL]
  have accepted : judgeKind s.mode c (Frame.ofBody .sq b) = .accepted :=
    if_pos (Bool.and_eq_true_iff.mpr ⟨beq_iff_eq.mpr run, targeted⟩)
  obtain ⟨l, h, next⟩ := exec_acceptedFrame (kind := .sq) (Or.inr (Or.inl run)) config peer accepted
  let m : State := { s with line := l, handler := h }
  have roomFor : m.queue.length + m.statusPosts.length ≤ Config.NQUEUE := Nat.add_le_add_right room 4
  obtain ⟨q, posted, perm⟩ := State.posts_fresh (s := m) m.statusPosts run roomFor
    (fun p snapshot x held => State.statusPosts_fresh snapshot (noSt x held)) m.statusPosts_apart
  have nothing : State.followUp s { m with queue := q } = { m with queue := q } :=
    State.followUp_outside_quiet rfl (by rw [run]; decide)
  rw [State.dispatchPeer_sq _ rfl, posted, nothing] at next
  refine ⟨_, next, fun e held => perm.mem_iff.mpr (List.mem_append_right _ held), ?_, fun k => ?_, rfl⟩
  · rw [perm.length_eq, List.length_append]
    exact Nat.add_comm 4 _
  · have waits : (m.stPost k).waiting ∈ m.statusPosts.map Post.waiting :=
      List.mem_map_of_mem (List.mem_map_of_mem (mem_allDistricts k))
    exact ⟨(m.stPost k).waiting, perm.mem_iff.mpr (List.mem_append_left _ waits), rfl, rfl,
      State.loc_stPost (s := m) config k, State.val_prio_stPost (s := m) config k, m.toNat_data_stPost k⟩

end

section
/-! PROOFS. What a step comes to: the command at the front of the queue of commands or the clock (log entries 1 and 4),
and no command that stops the machine (log entry 3). -/

namespace Sys2Proof.Machine

variable {s : State}

/-- A waiting command is taken from the queue before it acts. -/
theorem step_of_waiting {c : Instr} {rest : List Instr} (waiting : s.pending = c :: rest) :
    step s = exec c { s with pending := rest } := by
  unfold step
  rw [waiting]

theorem step_of_empty (empty : s.pending = []) : step s = s.clockStep := by
  unfold step
  rw [empty]

theorem State.clockStep_of_nothing_due (nothing : s.due = []) : s.clockStep = .next s.advance := by
  unfold State.clockStep
  rw [nothing]

/-- Where something is due the clock runs a command that is due, whatever the free value; it moves the free value's
counter on where it had a choice (log entry 4). -/
theorem State.clockStep_runs_due (something : s.due ≠ []) :
    ∃ c ∈ s.due, s.clockStep = exec c s ∨ s.clockStep = exec c { s with tie := s.tie + 1 } := by
  unfold State.clockStep
  split
  case h_1 nothing => exact absurd nothing something
  case h_2 c single =>
    rw [single]
    exact ⟨c, List.mem_singleton_self c, Or.inl rfl⟩
  case h_3 c d rest several =>
    have within : Config.tieBreak s.tie % (rest.length + 2) < (c :: d :: rest).length :=
      Nat.mod_lt _ (Nat.succ_pos _)
    rw [several, List.getD_eq_getElem _ _ within]
    exact ⟨_, List.getElem_mem within, Or.inr rfl⟩

/-- The meaning of every command is a next state, no fault and no refusal: one case per row of the table. -/
theorem exec_completes (c : Instr) (s : State) : ∃ t, exec c s = .next t := by
  cases c
  all_goals exact ⟨_, rfl⟩

end Sys2Proof.Machine

open Sys2Proof Sys2Proof.Machine

/-- Settles O1: the rest of the queue is what the command runs on. -/
theorem stepRunsFrontCommand : Obligations.StepRunsFrontCommand :=
  fun s c rest => step_of_waiting (s := { s with pending := c :: rest }) rfl

/-- Settles O2: an empty queue leaves the step to the clock, which runs what is due or lets a microsecond pass. -/
theorem emptyQueueStepsTheClock : Obligations.EmptyQueueStepsTheClock := by
  intro s empty
  rw [step_of_empty empty]
  exact ⟨State.clockStep_of_nothing_due, State.clockStep_runs_due⟩

/-- Settles O3: by the meaning of each command. -/
theorem everyCommandCompletes : Obligations.EveryCommandCompletes := by
  intro c s
  obtain ⟨t, next⟩ := exec_completes c s
  exact ⟨t, next, trivial⟩

end
